-- ==== Sys2Proof/Word.lean ====
section
/-! DEFINITION. The word types of the D416: bytes on the ring and the supervisor port, 16-bit and 32-bit fields, and the
station index. -/

namespace Sys2Proof

/-- One byte of a cycle frame, a lane word or an SPI transaction. -/
abbrev Byte := BitVec 8

/-- A 16-bit field: a sequence number, an epoch, a tag, a store word. -/
abbrev Half := BitVec 16

/-- A 32-bit field: a cycle count, a replay index, an argument or result word. -/
abbrev Word := BitVec 32

/-- A station of the rig by its place in the tables of 16; the station number is one more (section 1.2 of About This
Manual: stations 1 to 16). -/
abbrev Station := Fin 16

end Sys2Proof
end

