-- ==== Sys2Proof/Syntax.lean ====
section
/-! DEFINITION. The commands of the D416: one constructor of Instr per row of spec/opcode_table.json. The table gives no
operands; each constructor carries those that the rule of its row reads from outside the part. -/

namespace Sys2Proof

/-- A cable side (chapter The Rig Ring). -/
inductive Side where
  | west
  | east
  deriving DecidableEq, Repr

/-- A lane of the ring: A travels clockwise, B counter-clockwise. -/
inductive Lane where
  | a
  | b
  deriving DecidableEq, Repr

/-- One act of a cycle boundary whose order against the others the spec leaves open (R71, R73, R88, R156). -/
inductive BoundaryAction where
  /-- the feedback checks, R58 then R57 -/
  | servoChecks
  /-- the steps of the L and R ramps and of the STOP descent, R22, R24 -/
  | rampStep
  /-- the assembly test, R73 -/
  | assemblyTest
  /-- the countdown check, R77 -/
  | countdownCheck
  /-- the application of due orders, R113 -/
  | orders
  /-- the trim, R132 -/
  | trim
  /-- the miss count and test of one station, R143 -/
  | peerMiss (j : Station)
  /-- the examination of the returned flags, R182 -/
  | ringClosure
  /-- the repeated ISOLATED test, R91 -/
  | isolated
  /-- the building and placing of the own frame, R186, R188 -/
  | frameBuild
  deriving DecidableEq, Repr

/-- One report that an output instant makes, whose order against the others the spec leaves open (R88, section 2.7). -/
inductive InstantReport where
  /-- COUPLING_APPLIED, R27 -/
  | coupling
  /-- SEGMENT_DONE and the SCHEDULE_END request, R44, taken together (log 3, DESIGN CHOICE) -/
  | segment
  /-- the DRIVE_UNDERRUN request, R45 -/
  | underrun
  /-- the marker slots, R50 -/
  | markers
  /-- the PEER_LATE request for one station, R12 -/
  | late (j : Station)
  deriving DecidableEq, Repr

/-- An event whose stop request falls together with that of a STOP and is taken ahead of it (R88, R89): one for each kind of
event that sends the run controller a request (log 39, DESIGN CHOICE). -/
inductive Together where
  /-- a cycle boundary -/
  | boundary (first : List BoundaryAction)
  /-- an output instant -/
  | instant (first : List InstantReport)
  /-- the taking of the waiting delivery copy at place `n` -/
  | copy (n : Nat)
  /-- a change of the servo-ready state -/
  | servoReady (level : Bool)
  /-- a side that loses its signal -/
  | signalLost (side : Side)
  /-- a side that goes down on its 8th bad frame -/
  | frameCheckDown (side : Side)
  deriving DecidableEq, Repr

/-- What arrives with a STOP: its argument words, and the event that falls together with it and whose stop request is taken first, if
there is one (R89). -/
structure StopArrival where
  words : List Word
  ahead : Option Together
  deriving DecidableEq, Repr

/-- The commands. Supervisor commands carry the tag and the argument words of their transaction (R196); `first` names
acts of a boundary or reports of an instant that are taken ahead of the others, in the order given. -/
inductive Instr where
  /-- RESET_N falls (R68) -/
  | powerOnReset
  /-- RESET_N rises (R68) -/
  | resetRelease
  /-- a pending RESET NODE takes effect (R209) -/
  | resetNodeTakesEffect
  /-- the 4 µs reset ends (R209) -/
  | resetNodeEnd
  /-- the phase accumulator overflows (R121) -/
  | cycleBoundary (first : List BoundaryAction)
  /-- the phase first reaches OutputPhase (R123) -/
  | outputInstant (first : List InstantReport)
  /-- FB_FRM falls after the bits given, most significant first; `straddles`: FB_FRM had risen before the end of reset
  (R54, R68) -/
  | feedbackWord (straddles : Bool) (bits : List Bool)
  /-- SRDY has held a level for 64 edges (R60) -/
  | servoReady (level : Bool)
  /-- decodable symbols for 2 µs (R175) -/
  | signalPresent (side : Side)
  /-- no decodable symbol for 2 µs (R175) -/
  | signalLost (side : Side)
  /-- the down hold runs out (R176) -/
  | downHoldExpiry (side : Side)
  /-- a lane word received whole (R175) -/
  | laneWord (side : Side) (profile flags check : Byte)
  /-- the clean lane word that brings the valid-word count to 8 (R177) -/
  | sideTrained (side : Side)
  /-- a frame received, `closed` by E or cut short by a new F; `bytes` stand between the symbols (R180) -/
  | frameArrival (lane : Lane) (closed : Bool) (bytes : List Byte)
  /-- the bad frame that brings the failure count to 8 (R178) -/
  | frameCheckDown (side : Side)
  /-- a unit boundary of the lane's transmitter, after `edges` reference edges (R187) -/
  | transmitStart (lane : Lane) (edges : Nat)
  /-- the filter takes the waiting delivery copy at place `n` (R160) -/
  | deliveryCopyTaken (n : Nat)
  /-- the taking of copy `n` that resynchronises its entry (R166) -/
  | resynchronisation (n : Nat)
  /-- the taking of copy `n` that posts PATH_DEGRADED (R167) -/
  | pathDegraded (n : Nat)
  /-- the taking of copy `n` that reports step loss (R127) -/
  | stepLoss (n : Nat)
  /-- the boundary at which a FEEDBACK_LOSS request is sent (R57) -/
  | feedbackLoss (first : List BoundaryAction)
  /-- the boundary at which R is reported to reach 0 (R25) -/
  | rampEndReport (first : List BoundaryAction)
  /-- the boundary at which the assembly count reaches 16 (R73) -/
  | assemblyComplete (first : List BoundaryAction)
  /-- the boundary at which station `j` becomes SILENT (R143) -/
  | peerSilent (first : List BoundaryAction) (j : Station)
  /-- the boundary at which a lane opens (R182) -/
  | ringOpen (first : List BoundaryAction) (lane : Lane)
  /-- the boundary at which the marker pulse ends (R51) -/
  | markerPulseEnd (first : List BoundaryAction)
  /-- the output instant at which PEER_LATE is sent for station `j` (R12) -/
  | peerLate (first : List InstantReport) (j : Station)
  /-- a sample burst completes (R35) -/
  | sampleBurstCompletion
  /-- a shape-load burst completes (R29) -/
  | shapeLoadBurstCompletion
  /-- a WRITE PAGE chunk completes (R31) -/
  | writeChunkCompletion
  /-- a READ PAGE chunk completes (R31) -/
  | readChunkCompletion
  /-- a command transaction of bad form; `straddles`: it was under way when reset ended (R197) -/
  | malformedTransaction (straddles : Bool) (bytes : List Byte)
  /-- a READ REPLY of `clocked` bytes after its first (R196, R199) -/
  | readReply (clocked : Nat)
  /-- command 1 -/
  | getStatus (tag : Byte) (args : List Word)
  /-- command 2 -/
  | writeConfig (tag : Byte) (args : List Word)
  /-- command 3 -/
  | goOnline (tag : Byte) (args : List Word)
  /-- command 4 -/
  | writePage (tag : Byte) (args : List Word)
  /-- command 5 -/
  | readPage (tag : Byte) (args : List Word)
  /-- command 6 -/
  | appendSegment (tag : Byte) (args : List Word)
  /-- command 7 -/
  | discardSchedule (tag : Byte) (args : List Word)
  /-- command 8 -/
  | seekRepeat (tag : Byte) (args : List Word)
  /-- command 9 -/
  | writeCoupling (tag : Byte) (args : List Word)
  /-- command 10 -/
  | applyCoupling (tag : Byte) (args : List Word)
  /-- command 11 -/
  | start (tag : Byte) (args : List Word)
  /-- command 12 -/
  | pause (tag : Byte) (args : List Word)
  /-- command 13 -/
  | resume (tag : Byte) (args : List Word)
  /-- command 14 -/
  | setLevel (tag : Byte) (args : List Word)
  /-- command 15, with an event that may fall together with it (R89) -/
  | stop (tag : Byte) (arrival : StopArrival)
  /-- command 16 -/
  | clear (tag : Byte) (args : List Word)
  /-- command 17 -/
  | readEvent (tag : Byte) (args : List Word)
  /-- command 18 -/
  | readTable (tag : Byte) (args : List Word)
  /-- command 19 -/
  | clearCounters (tag : Byte) (args : List Word)
  /-- command 20 -/
  | resetNode (tag : Byte) (args : List Word)
  /-- the opening symbol F of a frame begins to arrive, after `edges` reference edges (R124) -/
  | arrivalStamp (lane : Lane) (edges : Nat)
  /-- a frame in transmission is sent to its end (R187) -/
  | transmissionEnd (lane : Lane)
  /-- the part loses its supply (R65) -/
  | powerLoss
  deriving DecidableEq, Repr

end Sys2Proof
end

