-- ==== Sys2Proof/Decode.lean ====
section
/-! DEFINITION. The command transaction of the supervisor port as bytes (R196, R197): its encoding, its form test and its
reading; and the host's decodeTableWord, which answers none because the table gives no row any bits (log 15, DESIGN CHOICE). -/

namespace Sys2Proof

/-- The command code, tag and argument words of a supervisor command (R202); none for every other step. -/
def Instr.command? : Instr → Option (Nat × Byte × List Word)
  | .getStatus tag args => some (1, tag, args)
  | .writeConfig tag args => some (2, tag, args)
  | .goOnline tag args => some (3, tag, args)
  | .writePage tag args => some (4, tag, args)
  | .readPage tag args => some (5, tag, args)
  | .appendSegment tag args => some (6, tag, args)
  | .discardSchedule tag args => some (7, tag, args)
  | .seekRepeat tag args => some (8, tag, args)
  | .writeCoupling tag args => some (9, tag, args)
  | .applyCoupling tag args => some (10, tag, args)
  | .start tag args => some (11, tag, args)
  | .pause tag args => some (12, tag, args)
  | .resume tag args => some (13, tag, args)
  | .setLevel tag args => some (14, tag, args)
  | .stop tag arrival => some (15, tag, arrival.words)
  | .clear tag args => some (16, tag, args)
  | .readEvent tag args => some (17, tag, args)
  | .readTable tag args => some (18, tag, args)
  | .clearCounters tag args => some (19, tag, args)
  | .resetNode tag args => some (20, tag, args)
  | _ => none

/-- The supervisor command of a code 1 to 20 (R202). -/
def commandOf? (code : Nat) (tag : Byte) (args : List Word) : Option Instr :=
  match code with
  | 1 => some (.getStatus tag args)
  | 2 => some (.writeConfig tag args)
  | 3 => some (.goOnline tag args)
  | 4 => some (.writePage tag args)
  | 5 => some (.readPage tag args)
  | 6 => some (.appendSegment tag args)
  | 7 => some (.discardSchedule tag args)
  | 8 => some (.seekRepeat tag args)
  | 9 => some (.writeCoupling tag args)
  | 10 => some (.applyCoupling tag args)
  | 11 => some (.start tag args)
  | 12 => some (.pause tag args)
  | 13 => some (.resume tag args)
  | 14 => some (.setLevel tag args)
  | 15 => some (.stop tag { words := args, ahead := none })
  | 16 => some (.clear tag args)
  | 17 => some (.readEvent tag args)
  | 18 => some (.readTable tag args)
  | 19 => some (.clearCounters tag args)
  | 20 => some (.resetNode tag args)
  | _ => none

/-- The XOR of bytes. -/
def xorAll (bytes : List Byte) : Byte := bytes.foldl (· ^^^ ·) 0

/-- The check byte: the complement of the XOR of the bytes ahead of it (R196). -/
def checkByte (bytes : List Byte) : Byte := ~~~(xorAll bytes)

/-- An argument word's bytes, most significant first (R196). -/
def argBytes (w : Word) : List Byte :=
  [w.extractLsb' 24 8, w.extractLsb' 16 8, w.extractLsb' 8 8, w.extractLsb' 0 8]

/-- Argument words read from their bytes; none when the bytes do not divide into words. -/
def readArgs : List Byte → Option (List Word)
  | [] => some []
  | b3 :: b2 :: b1 :: b0 :: rest => (readArgs rest).map (fun ws => (b3 ++ b2 ++ b1 ++ b0) :: ws)
  | _ => none

/-- The bytes of a command transaction on SPI_MOSI (R196). -/
def transaction (code : Nat) (tag : Byte) (args : List Word) : List Byte :=
  let front := BitVec.ofNat 8 code :: tag :: BitVec.ofNat 8 args.length :: args.flatMap argBytes
  front ++ [checkByte front]

/-- The transaction of a supervisor command; none for every other step. -/
def Instr.transaction? (i : Instr) : Option (List Byte) :=
  i.command?.map (fun c => transaction c.1 c.2.1 c.2.2)

/-- The form test of R197 for a transaction whose byte 0 names a command: at least 4 bytes, 4 + 4w of them, and a right check
byte. -/
def wellShaped (bytes : List Byte) : Bool :=
  decide (4 ≤ bytes.length) && decide (bytes.length = 4 + 4 * (bytes.getD 2 0).toNat) &&
    bytes.getLast? == some (checkByte bytes.dropLast)

/-- A transaction is malformed (R197): byte 0 in 1 to 20 with a bad form, or byte 0 in 21 to 255. Byte 0 of 0 is a READ REPLY,
and a transaction without a whole byte 0 is ignored. -/
def malformed : List Byte → Bool
  | [] => false
  | b0 :: rest =>
    if b0.toNat = 0 then false else if b0.toNat ≤ 20 then !wellShaped (b0 :: rest) else true

/-- A command transaction read (R196 to R198): the command, or none for a malformed transaction or a READ REPLY. -/
def readTransaction (bytes : List Byte) : Option Instr :=
  if wellShaped bytes then
    (readArgs (bytes.drop 3).dropLast).bind (fun args => commandOf? (bytes.getD 0 0).toNat (bytes.getD 1 0) args)
  else none

/-- The host's reading of a table word: no row of spec/opcode_table.json gives bits, so no word spells a command (log 15, DESIGN CHOICE). -/
def decodeTableWord (_nbits _w : Nat) : Option Instr := none

end Sys2Proof
end

