-- ==== Sys2Proof/Config.lean ====
section
/-! DEFINITION. The free values: what the spec leaves open and the part nevertheless produces. They have no body, so nothing
can be proved of them but what holds for every value. -/

namespace Sys2Proof

/-- For the `cut`-th write chunk cut off by a power-on reset: whether word `k` of the chunk holds its new value. R28: each
word holds "either its old or its new value" (log 6, DESIGN CHOICE). -/
opaque Config.cutWordIsNew (cut k : Nat) : Bool

/-- The result word that stands for the class of the first-fault record in table 6, for class T (true) and class S (false).
R93 and R206 give the field and no coding (log 7, DESIGN CHOICE). -/
opaque Config.classWord (isT : Bool) : Word

/-- The reply tag byte of a READ REPLY when no reply is held: R196 gives the command code and the status of that case and
not the tag (log 8, DESIGN CHOICE). -/
opaque Config.noReplyTag : Byte

end Sys2Proof
end

