-- ==== Sys2Proof/Machine/State.lean ====
section
/-! DEFINITION. The state of the D416, block by block as section 3 of About This Manual names them, and the state right after
reset. Every field is plain data. -/

namespace Sys2Proof.Machine

/-- No step of the part ends in a fault: an error is an effect on state (a reply, a counter, an event, a stop request). The
type has no constructor; nothing raises one (safe). -/
inductive Fault : Type where
  deriving DecidableEq, Repr

/-- Why a step has no meaning. -/
inductive Refusal where
  /-- raised by an arm of exec whose command has no meaning yet; no arm raises it (safe) -/
  | notModelled (mnemonic : String)
  deriving DecidableEq, Repr

/-- The run states (R69). -/
inductive RunState where
  | offline
  | assembly
  | standby
  | ready
  | countdown
  | run
  | pausing
  | paused
  | stopping
  | stopped
  | tripped
  deriving DecidableEq, Repr

/-- The part's condition: without supply (R65), RESET_N low (R68), in the 4 µs reset of RESET NODE with the reference edges
left (R209), or running. -/
inductive Condition where
  | unpowered
  | inReset
  | nodeReset (edges : Nat)
  | running
  deriving DecidableEq, Repr

/-- The 21 event kinds (R205). -/
inductive EventKind where
  | runState
  | stopTaken
  | stopNoted
  | countdownAbort
  | peerState
  | profileMismatch
  | pathDegraded
  | sideState
  | ringOpen
  | ringClosed
  | cycleAdopted
  | orderAdopted
  | orderLost
  | startMismatch
  | orderApplied
  | orderInapplicable
  | segmentDone
  | marker
  | markerPauseDropped
  | couplingApplied
  | servoReady
  deriving DecidableEq, Repr

/-- An event record (R204). -/
structure Event where
  kind    : EventKind
  cycle   : Word
  detail1 : Word
  detail2 : Word
  deriving DecidableEq, Repr

/-- The status codes (R196). -/
inductive Status where
  | ok
  | pending
  | busy
  | refusedState
  | refusedCondition
  | invalid
  | full
  | empty
  deriving DecidableEq, Repr

/-- The counters of the counter bank, under their owners' names (R207). -/
inductive Counter where
  | clip
  | slew
  | underrun
  | discard
  | feedbackStale
  | feedbackRange
  | feedbackFraming
  | stopsTaken
  | stopsCounted
  | stopsNoted
  | countdownAbort
  | ordersOriginated
  | ordersAdopted
  | ordersApplied
  | ordersInapplicable
  | ordersDisplaced
  | offsetClamp
  | stepLoss
  | cycleAdoption
  | peerSilent
  | beyondWindow
  | indexSkew
  | tagSkew
  | accepted
  | duplicate
  | repeated
  | gap
  | missed
  | stale
  | resync
  | sourceInvalid
  | badFrame (side : Side)
  | wordError (side : Side)
  | notUp (side : Side)
  | forwarded (lane : Lane)
  | hopExhausted (lane : Lane)
  | noPath (lane : Lane)
  | queueFull (lane : Lane)
  | ownSkipped (lane : Lane)
  | ownReturned (lane : Lane)
  | eventOverflow
  | transactionError
  | busyAnswer
  deriving DecidableEq, Repr

/-- The action of a marker slot (R50). -/
inductive MarkerAction where
  | pulse
  | pause
  | note
  deriving DecidableEq, Repr

/-- A marker slot (R50, items 25 to 28 of R200). -/
structure MarkerSlot where
  enable     : Bool
  action     : MarkerAction
  keyTag     : Half
  tagMask    : Half
  keyRepeat  : Half
  repeatMask : Half
  deriving DecidableEq, Repr

/-- The configuration items (R200). Counts and phases are natural numbers, drive and feedback quantities integers, masks bit
vectors. -/
structure Items where
  station     : Nat
  roster      : Half
  domain      : Byte
  rate        : Fin 3
  outputPhase : Nat
  lag         : Nat
  laneDelayA  : Nat
  laneDelayB  : Nat
  cmdMin      : Int
  cmdMax      : Int
  bias        : Int
  slewMax     : Int
  fbMin       : Int
  fbMax       : Int
  carry       : Bool
  stopStep    : Nat
  missLimit   : Nat
  holdLimit   : Nat
  stepLimit   : Nat
  staleLimit  : Nat
  trimMax     : Nat
  minLead     : Nat
  pulseCycles : Nat
  pauseLength : Nat
  slot0       : MarkerSlot
  slot1       : MarkerSlot
  slot2       : MarkerSlot
  slot3       : MarkerSlot
  deriving DecidableEq, Repr

/-- A ramp of L or R: start value, target, length in boundaries and steps taken (R22). -/
structure Ramp where
  start  : Nat
  target : Nat
  length : Nat
  step   : Nat
  deriving DecidableEq, Repr

/-- What stands as the R descriptor: a ramp, or the STOP descent (R24). -/
inductive RunRamp where
  | ramp (r : Ramp)
  | descent
  deriving DecidableEq, Repr

/-- The apply request of the coupling banks (R27). -/
inductive ApplyRequest where
  | none
  | now
  | atRepeat
  deriving DecidableEq, Repr

/-- State of the drive unit (R3). `strobes` counts the CMD_STB pulses given since reset (R63). -/
structure Drive where
  level       : Nat
  ramp        : Nat
  levelRamp   : Option Ramp
  runRamp     : Option RunRamp
  prev        : Int
  residual    : Int
  code        : Int
  held        : Int
  active      : Vector Int 16
  pendingBank : Vector Int 16
  apply       : ApplyRequest
  runStart    : Word
  clipFlag    : Bool
  slewFlag    : Bool
  strobes     : Nat
  deriving DecidableEq, Repr

/-- A schedule entry (R38). -/
structure Entry where
  tag       : Nat
  startPage : Nat
  length    : Nat
  repeats   : Nat
  gain      : Nat
  fadeIn    : Nat
  fadeOut   : Nat
  shape     : Nat
  deriving DecidableEq, Repr

/-- The playback position in the head: repeat r, offset i and the head start index H (R42). -/
structure HeadPos where
  rep    : Nat
  offset : Nat
  start  : Word
  deriving DecidableEq, Repr

/-- The reader position (R33): the entry being fetched, the next repeat and offset to fetch, and the entries that follow it
in append order. An entry that playback has retired stays here until the reader has passed it. -/
structure Reader where
  entry  : Entry
  rep    : Nat
  offset : Nat
  later  : List Entry
  deriving DecidableEq, Repr

/-- The burst requested and not yet completed (R33): a sample burst from a store word on, with its void flag, or the
shape-load burst of one shape (R29). -/
inductive Burst where
  | sample (first length : Nat) (void : Bool)
  | shape (s : Nat)
  deriving DecidableEq, Repr

/-- A position record: tag and repeat (R42). -/
structure PosRecord where
  tag : Half
  rep : Half
  deriving DecidableEq, Repr

/-- Store words as (word address, word), addresses strictly rising, no word equal to what an unlisted one reads as. -/
abbrev Words := List (Nat × Half)

/-- State of the schedule unit, the prefetch FIFO and the marker unit (R29, R33, R38, R42, R51). -/
structure Sched where
  queue      : List Entry
  head       : Option HeadPos
  next       : Word
  replay     : Word
  current    : Option PosRecord
  previous   : Option PosRecord
  fifo       : List Half
  reader     : Option Reader
  debt       : Nat
  hold       : Bool
  loaded     : Bool
  shapeCount : Nat
  shapes     : Words
  burst      : Option Burst
  mark       : Bool
  pulse      : Nat
  deriving DecidableEq, Repr

/-- The two requesters of the store port (section 2.2). -/
inductive Requester where
  | prefetch
  | supervisor
  deriving DecidableEq, Repr

/-- A supervisor transfer chunk: the words to write, or the count to read, from a store word on (R31). -/
inductive Chunk where
  | write (first : Nat) (words : List Half)
  | read (first count : Nat)
  deriving DecidableEq, Repr

/-- The store arbiter: whom it serves (none: IDLE) and the supervisor's chunk; the burst stands in Sched (R30). -/
structure Arbiter where
  serving : Option Requester
  chunk   : Option Chunk
  deriving DecidableEq, Repr

/-- State of the servo side (R53). -/
structure Servo where
  latest       : Option Int
  fresh        : Bool
  feedback     : Int
  stale        : Bool
  staleRun     : Nat
  ready        : Bool
  receiveCount : Nat
  deriving DecidableEq, Repr

/-- Causes of stop requests (R81). -/
inductive Cause where
  | operator
  | scheduleEnd
  | peerLost
  | peerLate
  | peerRestart
  | indexSkew
  | tagSkew
  | stepLoss
  | orderSkew
  | orderOverflow
  | driveUnderrun
  | feedbackLimit
  | feedbackLoss
  | servoNotReady
  | isolated
  | peerStop
  deriving DecidableEq, Repr

/-- A stop field: origin station and stop reason (R70, R92). -/
structure StopField where
  origin : Nat
  reason : Nat
  deriving DecidableEq, Repr

/-- The first-fault record (R93, R94). `classT` is the class of the request. -/
structure FaultRecord where
  cause     : Nat
  reason    : Nat
  origin    : Nat
  classT    : Bool
  concerned : Nat
  state     : RunState
  cycle     : Word
  replay    : Word
  tag       : Half
  rep       : Half
  escalated : Bool
  further   : Nat
  deriving DecidableEq, Repr

/-- The identity of an order (R99). -/
structure OrderId where
  epoch  : Half
  origin : Nat
  deriving DecidableEq, Repr

/-- State of the run controller (R70). -/
structure Run where
  state     : RunState
  assembly  : Nat
  countdown : Option OrderId
  adoption  : Word
  stopField : Option StopField
  record    : Option FaultRecord
  trip      : Bool
  noted     : Vector (Option Cause) 16
  deriving DecidableEq, Repr

/-- Order kinds (R99). -/
inductive OrderKind where
  | start
  | pause
  | resume
  | level
  deriving DecidableEq, Repr

/-- An order record, normalised (R99). -/
structure Order where
  kind      : OrderKind
  epoch     : Half
  origin    : Nat
  domain    : Byte
  effective : Word
  a         : Nat
  b         : Nat
  deriving DecidableEq, Repr

/-- State of the order unit (R98). `carried` marks the entry of own origin with that epoch. -/
structure Orders where
  pending : List Order
  history : List OrderId
  highest : Half
  carried : Option Half
  deriving DecidableEq, Repr

/-- State of the timebase (R120). K_nom and K follow from the rate in use and the trim. -/
structure Time where
  acc      : Word
  rate     : Fin 3
  trim     : Int
  cycle    : Word
  mark     : Bool
  lastMean : Int
  used     : Nat
  fresh    : Vector Bool 16
  deriving DecidableEq, Repr

/-- Peer states (R136). -/
inductive PeerState where
  | unseen
  | excluded
  | listed
  | active
  | silent
  deriving DecidableEq, Repr

/-- The last frame record of a peer (R136). -/
structure LastFrame where
  runState   : Byte
  cycle      : Word
  replay     : Word
  tag        : Half
  rep        : Half
  domain     : Byte
  stopOrigin : Nat
  stopReason : Nat
  highest    : Half
  stale      : Bool
  deriving DecidableEq, Repr

/-- One feedback record of a peer window (R148). -/
structure WindowRecord where
  index    : Word
  feedback : Int
  stale    : Bool
  deriving DecidableEq, Repr

/-- A peer table entry (R136). -/
structure Peer where
  state        : PeerState
  expected     : Bool
  profileMatch : Bool
  shares       : Bool
  last         : LastFrame
  cycles       : Nat
  offset       : Int
  stepRun      : Nat
  holdRun      : Nat
  restarts     : Nat
  window       : List WindowRecord
  deriving DecidableEq, Repr

/-- A duplicate filter entry (R158). `onA` and `onB` are the lanes delivered. -/
structure FilterEntry where
  valid     : Bool
  last      : Half
  onA       : Bool
  onB       : Bool
  staleRun  : Nat
  singleRun : Nat
  deriving DecidableEq, Repr

/-- The cycle frame, bytes 0 to 41 (R191). Every bit of those bytes stands in a field. -/
structure Frame where
  source      : Byte
  profile     : Byte
  hops        : Byte
  runState    : Byte
  cycle       : Word
  sendPhase   : Half
  age         : Half
  domain      : Byte
  flags       : Byte
  tag         : Half
  rep         : Half
  replay      : Word
  feedback    : BitVec 24
  stopOrigin  : Byte
  stopReason  : Byte
  orderKind   : Byte
  orderEpoch  : Half
  orderOrigin : Byte
  orderDomain : Byte
  effective   : Word
  argA        : Half
  argB        : Half
  highest     : Half
  deriving DecidableEq, Repr

/-- An arrival stamp: own cycle count and phase (R124). -/
structure Stamp where
  cycle : Word
  phase : Nat
  deriving DecidableEq, Repr

/-- A delivery copy (R159). -/
structure Copy where
  frame : Frame
  lane  : Lane
  age   : Nat
  stamp : Stamp
  deriving DecidableEq, Repr

/-- A frame waiting in a transmit queue (R185): the own frame, or a forwarded frame with its arrival stamp. -/
inductive Queued where
  | own (f : Frame)
  | forwarded (f : Frame) (stamp : Stamp)
  deriving DecidableEq, Repr

/-- A frame in transmission, with the CRC sent after it (R187). -/
structure Sending where
  frame : Frame
  crc   : Word
  deriving DecidableEq, Repr

/-- Side states (R173). -/
inductive SideState where
  | down
  | training
  | up
  deriving DecidableEq, Repr

/-- State kept per cable side (R173). `hold` is the down hold left, in reference edges. -/
structure SideRec where
  state  : SideState
  signal : Bool
  hold   : Nat
  words  : Nat
  fails  : Nat
  deriving DecidableEq, Repr

/-- State kept per lane (R173), with the arrival stamp of the frame now arriving on it (R124). -/
structure LaneRec where
  queue       : List Queued
  sending     : Option Sending
  receiving   : Option Stamp
  closed      : Bool
  returned    : Bool
  misses      : Nat
  roundTrip   : Nat
  returnedSeq : Half
  deriving DecidableEq, Repr

/-- State of the ring ports (R173). -/
structure Ring where
  west : SideRec
  east : SideRec
  a    : LaneRec
  b    : LaneRec
  deriving DecidableEq, Repr

/-- A reply record (R199). -/
structure Reply where
  tag    : Byte
  code   : Nat
  status : Status
  words  : List Word
  deriving DecidableEq, Repr

/-- A RESET NODE not yet in effect (R209): reference edges left of its 100 µs, or a READ REPLY has begun within them. -/
inductive PendingReset where
  | waiting (edges : Nat)
  | replyBegun
  deriving DecidableEq, Repr

/-- State of the supervisor port (R195). `miso` holds the bytes shifted out in the last transaction. -/
structure Port where
  progress     : Option (Nat × Byte)
  reply        : Option Reply
  answer       : Option (Byte × Status)
  resetPending : Option PendingReset
  items        : Items
  events       : List Event
  counters     : Vector Nat 52
  miso         : List Byte
  deriving DecidableEq, Repr

/-- A step of the table that comes about inside another one (95_what_each_step_holds.md). -/
inductive Happening where
  | resynchronisation
  | pathDegraded
  | stepLoss
  | feedbackLoss
  | rampEnd
  | assemblyComplete
  | peerSilent (j : Station)
  | ringOpen (lane : Lane)
  | pulseEnd
  | peerLate (j : Station)
  deriving DecidableEq, Repr

/-- The model's own scratch inside one step, at rest between steps (log 4, DESIGN CHOICE). `stepped`: the values of L and R that the boundary
before left, once the ramps have stepped at the boundary being taken. `brought`: what has come about in the step. -/
structure Scratch where
  stepped : Option (Nat × Nat)
  brought : List Happening
  deriving DecidableEq, Repr

/-- The whole machine. -/
structure State where
  cond    : Condition
  drive   : Drive
  sched   : Sched
  store   : Words
  arb     : Arbiter
  servo   : Servo
  run     : Run
  orders  : Orders
  time    : Time
  peers   : Vector Peer 16
  filter  : Vector FilterEntry 16
  waiting : List Copy
  ring    : Ring
  port    : Port
  scratch : Scratch
  cuts    : Nat
  pending : List Instr
  deriving DecidableEq, Repr

/-- The marker slot of the reset column of R200. -/
def MarkerSlot.reset : MarkerSlot :=
  { enable := false, action := .pulse, keyTag := 0, tagMask := 0, keyRepeat := 0, repeatMask := 0 }

/-- The reset column of R200. -/
def Items.reset : Items :=
  { station := 0, roster := 0, domain := 0, rate := 2, outputPhase := 49152, lag := 1, laneDelayA := 0, laneDelayB := 0,
    cmdMin := -32768, cmdMax := 32767, bias := 0, slewMax := 8388607, fbMin := -8388608, fbMax := 8388607, carry := true,
    stopStep := 512, missLimit := 4, holdLimit := 2, stepLimit := 4096, staleLimit := 3, trimMax := 64, minLead := 64,
    pulseCycles := 8, pauseLength := 1024, slot0 := .reset, slot1 := .reset, slot2 := .reset, slot3 := .reset }

/-- R3. -/
def Drive.reset : Drive :=
  { level := 32768, ramp := 0, levelRamp := none, runRamp := none, prev := 0, residual := 0, code := 0, held := 0,
    active := Vector.replicate 16 0, pendingBank := Vector.replicate 16 0, apply := .none, runStart := 0,
    clipFlag := false, slewFlag := false, strobes := 0 }

/-- R29, R33, R38, R42, R51. -/
def Sched.reset : Sched :=
  { queue := [], head := none, next := 0, replay := 0, current := none, previous := none, fifo := [], reader := none,
    debt := 0, hold := false, loaded := false, shapeCount := 0, shapes := [], burst := none, mark := false, pulse := 0 }

/-- R30. -/
def Arbiter.reset : Arbiter := { serving := none, chunk := none }

/-- R53. -/
def Servo.reset : Servo :=
  { latest := none, fresh := false, feedback := 0, stale := false, staleRun := 0, ready := false, receiveCount := 0 }

/-- R70. -/
def Run.reset : Run :=
  { state := .offline, assembly := 0, countdown := none, adoption := 0, stopField := none, record := none, trip := true,
    noted := Vector.replicate 16 none }

/-- R98. -/
def Orders.reset : Orders := { pending := [], history := [], highest := 0, carried := none }

/-- R120. -/
def Time.reset : Time :=
  { acc := 0, rate := 2, trim := 0, cycle := 0, mark := false, lastMean := 0, used := 0, fresh := Vector.replicate 16 false }

/-- R136: the last frame record all 0. -/
def LastFrame.reset : LastFrame :=
  { runState := 0, cycle := 0, replay := 0, tag := 0, rep := 0, domain := 0, stopOrigin := 0, stopReason := 0, highest := 0,
    stale := false }

/-- R136. -/
def Peer.reset : Peer :=
  { state := .unseen, expected := false, profileMatch := false, shares := false, last := .reset, cycles := 0, offset := 0,
    stepRun := 0, holdRun := 0, restarts := 0, window := [] }

/-- R158. -/
def FilterEntry.reset : FilterEntry :=
  { valid := false, last := 0, onA := false, onB := false, staleRun := 0, singleRun := 0 }

/-- R173; the down hold stands at 10 µs, 500 reference edges (log 10, DEDUCED). -/
def SideRec.reset : SideRec := { state := .down, signal := false, hold := 500, words := 0, fails := 0 }

/-- R173. -/
def LaneRec.reset : LaneRec :=
  { queue := [], sending := none, receiving := none, closed := false, returned := false, misses := 0, roundTrip := 0,
    returnedSeq := 0 }

/-- R173. -/
def Ring.reset : Ring := { west := .reset, east := .reset, a := .reset, b := .reset }

/-- R195. -/
def Port.reset : Port :=
  { progress := none, reply := none, answer := none, resetPending := none, items := .reset, events := [],
    counters := Vector.replicate 52 0, miso := [] }

/-- The scratch at rest. -/
def Scratch.rest : Scratch := { stepped := none, brought := [] }

/-- The part right after reset (log 1, DESIGN CHOICE): running, in OFFLINE, every block at the values its chapter gives. The drive store lists
nothing (log 5, DESIGN CHOICE). -/
def State.reset : State :=
  { cond := .running, drive := .reset, sched := .reset, store := [], arb := .reset, servo := .reset, run := .reset,
    orders := .reset, time := .reset, peers := Vector.replicate 16 .reset, filter := Vector.replicate 16 .reset,
    waiting := [], ring := .reset, port := .reset, scratch := .rest, cuts := 0, pending := [] }

end Sys2Proof.Machine
end

