-- ==== Sys2Proof/Machine/Ops.lean ====
section
/-! DEFINITION. The named operations the blocks share: integer arithmetic (R1), serial comparison (R2), codes, the tables of 16,
cable sides and lanes, the counter bank (R207), the event queue (R204), store words (R28), and the clock within a cycle
(R121). -/

namespace Sys2Proof.Machine

/-! ### Integers and serial comparison -/

/-- floor(a / 2^k + 1/2), rounding half up (R1). -/
def roundShift (a : Int) (k : Nat) : Int := (a + 2 ^ (k - 1)) / 2 ^ k

/-- clamp(x, lo, hi) (R1): lo below lo, hi above hi, x otherwise. -/
def clamp (x lo hi : Int) : Int := if x < lo then lo else if x > hi then hi else x

/-- The signed distance of two counts (R2). -/
def signedDistance {w : Nat} (a b : BitVec w) : Int := (a - b).toInt

/-- a is later than b, serially (R2): the distance lies in 1 .. 2^(w-1) - 1. -/
def later {w : Nat} (a b : BitVec w) : Bool :=
  let d := (a - b).toNat
  decide (0 < d ∧ d < 2 ^ (w - 1))

/-- a is earlier than b, serially (R2): the distance lies in 2^(w-1) .. 2^w - 1. -/
def earlier {w : Nat} (a b : BitVec w) : Bool := decide (2 ^ (w - 1) ≤ (a - b).toNat)

/-- An addition that stops at the largest 32-bit value (R207). -/
def saturate32 (n k : Nat) : Nat := min 4294967295 (n + k)

/-- A result or detail word of a count. -/
def word (n : Nat) : Word := BitVec.ofNat 32 n

/-- A result word of a signed quantity, in two's complement (R203). -/
def signedWord (i : Int) : Word := BitVec.ofInt 32 i

/-- A result word of a flag: 1 when set (R203). -/
def flagWord (b : Bool) : Word := if b then 1 else 0

/-! ### Codes -/

/-- R69. -/
def RunState.code : RunState → Nat
  | .offline => 0
  | .assembly => 1
  | .standby => 2
  | .ready => 3
  | .countdown => 4
  | .run => 5
  | .pausing => 6
  | .paused => 7
  | .stopping => 8
  | .stopped => 9
  | .tripped => 10

/-- The playing states (section 6 of About This Manual): a sample is consumed at each output instant. -/
def RunState.playing : RunState → Bool
  | .run => true
  | .pausing => true
  | .stopping => true
  | _ => false

/-- The states in which a lost servo or a lost ring trips the node (R62, R91). -/
def RunState.inMotion : RunState → Bool
  | .countdown => true
  | .run => true
  | .pausing => true
  | .paused => true
  | .stopping => true
  | _ => false

/-- R205. -/
def EventKind.code : EventKind → Nat
  | .runState => 1
  | .stopTaken => 2
  | .stopNoted => 3
  | .countdownAbort => 4
  | .peerState => 5
  | .profileMismatch => 6
  | .pathDegraded => 7
  | .sideState => 8
  | .ringOpen => 9
  | .ringClosed => 10
  | .cycleAdopted => 11
  | .orderAdopted => 12
  | .orderLost => 13
  | .startMismatch => 14
  | .orderApplied => 15
  | .orderInapplicable => 16
  | .segmentDone => 17
  | .marker => 18
  | .markerPauseDropped => 19
  | .couplingApplied => 20
  | .servoReady => 21

/-- R196. -/
def Status.code : Status → Nat
  | .ok => 0
  | .pending => 1
  | .busy => 2
  | .refusedState => 3
  | .refusedCondition => 4
  | .invalid => 5
  | .full => 6
  | .empty => 7

/-- R81. -/
def Cause.code : Cause → Nat
  | .operator => 1
  | .scheduleEnd => 2
  | .peerLost => 3
  | .peerLate => 4
  | .peerRestart => 5
  | .indexSkew => 6
  | .tagSkew => 7
  | .stepLoss => 8
  | .orderSkew => 9
  | .orderOverflow => 10
  | .driveUnderrun => 11
  | .feedbackLimit => 12
  | .feedbackLoss => 13
  | .servoNotReady => 14
  | .isolated => 15
  | .peerStop => 16

/-- The class of each cause: T for 12 to 15, S for the others (R81). -/
def Cause.isT : Cause → Bool
  | .feedbackLimit => true
  | .feedbackLoss => true
  | .servoNotReady => true
  | .isolated => true
  | _ => false

/-- R99. -/
def OrderKind.code : OrderKind → Nat
  | .start => 1
  | .pause => 2
  | .resume => 3
  | .level => 4

/-- R99, R193: a kind outside 1 to 4 is no order. -/
def OrderKind.ofByte? (b : Byte) : Option OrderKind :=
  match b.toNat with
  | 1 => some .start
  | 2 => some .pause
  | 3 => some .resume
  | 4 => some .level
  | _ => none

/-- R136. -/
def PeerState.code : PeerState → Nat
  | .unseen => 0
  | .excluded => 1
  | .listed => 2
  | .active => 3
  | .silent => 4

/-- LISTED, ACTIVE or SILENT: the entries that write windows, place orders and make peer stops (R90, R106, R148). -/
def PeerState.member : PeerState → Bool
  | .listed => true
  | .active => true
  | .silent => true
  | _ => false

/-- R173. -/
def SideState.code : SideState → Nat
  | .down => 0
  | .training => 1
  | .up => 2

end Sys2Proof.Machine

namespace Sys2Proof

/-- West is 1 and East is 2 (R179). -/
def Side.code : Side → Nat
  | .west => 1
  | .east => 2

/-- 1 for A, 2 for B (R167, R182). -/
def Lane.code : Lane → Nat
  | .a => 1
  | .b => 2

/-- The side that receives a lane: West receives A, East receives B. -/
def Lane.inSide : Lane → Side
  | .a => .west
  | .b => .east

/-- The side that transmits a lane: A leaves at East, B at West. -/
def Lane.outSide : Lane → Side
  | .a => .east
  | .b => .west

/-- The lane that a side receives. -/
def Side.receives : Side → Lane
  | .west => .a
  | .east => .b

/-- The lane that a side transmits. -/
def Side.transmits : Side → Lane
  | .west => .b
  | .east => .a

end Sys2Proof

namespace Sys2Proof.Machine

/-- K_nom of a rate code (R122). -/
def nominalIncrement (rate : Fin 3) : Nat :=
  match rate.val with
  | 0 => 87961
  | 1 => 175922
  | _ => 351844

/-- The place of each counter in the bank: one less than its index of R207. -/
def Counter.place : Counter → Fin 52
  | .clip => 0
  | .slew => 1
  | .underrun => 2
  | .discard => 3
  | .feedbackStale => 4
  | .feedbackRange => 5
  | .feedbackFraming => 6
  | .stopsTaken => 7
  | .stopsCounted => 8
  | .stopsNoted => 9
  | .countdownAbort => 10
  | .ordersOriginated => 11
  | .ordersAdopted => 12
  | .ordersApplied => 13
  | .ordersInapplicable => 14
  | .ordersDisplaced => 15
  | .offsetClamp => 16
  | .stepLoss => 17
  | .cycleAdoption => 18
  | .peerSilent => 19
  | .beyondWindow => 20
  | .indexSkew => 21
  | .tagSkew => 22
  | .accepted => 23
  | .duplicate => 24
  | .repeated => 25
  | .gap => 26
  | .missed => 27
  | .stale => 28
  | .resync => 29
  | .sourceInvalid => 30
  | .badFrame .west => 31
  | .badFrame .east => 32
  | .wordError .west => 33
  | .wordError .east => 34
  | .notUp .west => 35
  | .notUp .east => 36
  | .forwarded .a => 37
  | .forwarded .b => 38
  | .hopExhausted .a => 39
  | .hopExhausted .b => 40
  | .noPath .a => 41
  | .noPath .b => 42
  | .queueFull .a => 43
  | .queueFull .b => 44
  | .ownSkipped .a => 45
  | .ownSkipped .b => 46
  | .ownReturned .a => 47
  | .ownReturned .b => 48
  | .eventOverflow => 49
  | .transactionError => 50
  | .busyAnswer => 51

/-! ### Tables of 16, stations, sides and lanes -/

/-- A table of 16 with the record of one station put anew. -/
def put {α : Type} (t : Vector α 16) (j : Station) (x : α) : Vector α 16 := t.set j.val x j.isLt

/-- The 16 stations in order. -/
def stations : List Station := [0, 1, 2, 3, 4, 5, 6, 7, 8, 9, 10, 11, 12, 13, 14, 15]

/-- The station of a number 1 to 16. -/
def stationOf? (n : Nat) : Option Station :=
  if h : 1 ≤ n ∧ n ≤ 16 then some ⟨n - 1, by omega⟩ else none

/-- The number of a station, 1 to 16. -/
def stationNumber (j : Station) : Nat := j.val + 1

/-- The record of a cable side. -/
def Ring.side (r : Ring) : Side → SideRec
  | .west => r.west
  | .east => r.east

/-- A side record put anew. -/
def Ring.setSide (r : Ring) (x : SideRec) : Side → Ring
  | .west => { r with west := x }
  | .east => { r with east := x }

/-- The record of a lane. -/
def Ring.lane (r : Ring) : Lane → LaneRec
  | .a => r.a
  | .b => r.b

/-- A lane record put anew. -/
def Ring.setLane (r : Ring) (x : LaneRec) : Lane → Ring
  | .a => { r with a := x }
  | .b => { r with b := x }

/-- The side record of the state. -/
def State.side (s : State) (d : Side) : SideRec := s.ring.side d

/-- The lane record of the state. -/
def State.lane (s : State) (l : Lane) : LaneRec := s.ring.lane l

/-- The state with one side record changed. -/
def State.onSide (s : State) (d : Side) (f : SideRec → SideRec) : State :=
  { s with ring := s.ring.setSide (f (s.ring.side d)) d }

/-- The state with one lane record changed. -/
def State.onLane (s : State) (l : Lane) (f : LaneRec → LaneRec) : State :=
  { s with ring := s.ring.setLane (f (s.ring.lane l)) l }

/-- The peer table entry of a station. -/
def State.peer (s : State) (j : Station) : Peer := s.peers.get j

/-- The state with one peer table entry changed. -/
def State.onPeer (s : State) (j : Station) (f : Peer → Peer) : State :=
  { s with peers := put s.peers j (f (s.peers.get j)) }

/-- The configuration items. -/
def State.items (s : State) : Items := s.port.items

/-- The node is online: from GO ONLINE to the next reset it is in no state but ASSEMBLY to TRIPPED (R69). -/
def State.online (s : State) : Bool := s.run.state != .offline

/-- Step 1 of every rule that names "the own station": its number in the configuration (R200). -/
def State.ownNumber (s : State) : Nat := s.port.items.station

/-- LaneDelay of a lane (R200). -/
def State.laneDelay (s : State) : Lane → Nat
  | .a => s.port.items.laneDelayA
  | .b => s.port.items.laneDelayB

/-! ### Counters and events -/

/-- A counter raised by `n`, stopping at 4,294,967,295 (R207). -/
def State.count (c : Counter) (n : Nat) (s : State) : State :=
  { s with port := { s.port with
      counters := s.port.counters.set c.place.val (saturate32 (s.port.counters.get c.place) n) c.place.isLt } }

/-- A counter incremented. -/
def State.bump (c : Counter) (s : State) : State := s.count c 1

/-- The value of a counter. -/
def State.counter (s : State) (c : Counter) : Nat := s.port.counters.get c.place

/-- A block posts an event (R204): behind the newest record, or dropped and counted when 32 stand in the queue. -/
def State.post (kind : EventKind) (detail1 detail2 : Word) (s : State) : State :=
  if s.port.events.length < 32 then
    { s with port := { s.port with events := s.port.events ++ [⟨kind, s.time.cycle, detail1, detail2⟩] } }
  else s.bump .eventOverflow

/-- Marks that a named step has come about inside the step being taken (log 2, DESIGN CHOICE, log 4, DESIGN CHOICE). -/
def State.bring (h : Happening) (s : State) : State :=
  { s with scratch := { s.scratch with brought := h :: s.scratch.brought } }

/-- The scratch brought to rest at the end of a step. -/
def State.settle (s : State) : State := { s with scratch := .rest }

/-! ### Store words -/

/-- The number of store words (R28): 8192 pages of 4096. -/
def storeWords : Nat := 33554432

/-- What a word reads as: an unlisted one reads 0 (log 5, DESIGN CHOICE; for the shape copy R29 gives 0). -/
def Words.read : Words → Nat → Half
  | [], _ => 0
  | (b, v) :: m, a => if b = a then v else Words.read m a

/-- A word written, in the canonical form: an entry equal to what an unlisted word reads as is left out. -/
def Words.write : Words → Nat → Half → Words
  | [], a, v => if v = 0 then [] else [(a, v)]
  | (b, u) :: m, a, v =>
    if a < b then (if v = 0 then (b, u) :: m else (a, v) :: (b, u) :: m)
    else if a = b then (if v = 0 then m else (a, v) :: m)
    else (b, u) :: Words.write m a v

/-- Consecutive words written from `a` on. -/
def Words.writeAll : Words → Nat → List Half → Words
  | m, _, [] => m
  | m, a, v :: vs => Words.writeAll (m.write a v) (a + 1) vs

/-- `n` consecutive words read from `a` on. -/
def Words.readAll (m : Words) (a : Nat) : Nat → List Half
  | 0 => []
  | n + 1 => m.read a :: Words.readAll m (a + 1) n

/-- The canonical form: addresses strictly rising, no word equal to what an unlisted one reads as. -/
abbrev Words.wf (m : Words) : Prop := m.Pairwise (fun x y => x.1 < y.1) ∧ ∀ c ∈ m, c.2 ≠ 0

/-! ### The clock within a cycle -/

/-- K = K_nom + T (R120). -/
def State.increment (s : State) : Nat := ((nominalIncrement s.time.rate : Int) + s.time.trim).toNat

/-- The phase: the upper 16 bits of the accumulator (R121). -/
def State.phase (s : State) : Nat := s.time.acc.toNat / 65536

/-- The reading of the cycle count and phase that a stamp keeps (R124). -/
def State.stampNow (s : State) : Stamp := { cycle := s.time.cycle, phase := s.phase }

/-- A timer of `left` edges after `n` more, at its last edge at the least: its end is an event of its own (log 9, DESIGN CHOICE). -/
def runTimer (left n : Nat) : Nat := if left = 0 then 0 else max 1 (left - n)

/-- `n` reference edges pass: K is added at each (R121), and the down holds (R176) and the 100 µs of RESET NODE (R209) run
on. -/
def State.elapse (n : Nat) (s : State) : State :=
  { s with
    time := { s.time with acc := BitVec.ofNat 32 (s.time.acc.toNat + n * s.increment) }
    ring := { s.ring with
      west := { s.ring.west with hold := runTimer s.ring.west.hold n }
      east := { s.ring.east with hold := runTimer s.ring.east.hold n } }
    port := { s.port with
      resetPending := match s.port.resetPending with
        | some (.waiting e) => some (.waiting (runTimer e n))
        | other => other } }

/-- The reference edges up to and with the next one that carries out of the accumulator (R121). -/
def State.edgesToBoundary (s : State) : Nat :=
  (4294967296 - s.time.acc.toNat + s.increment - 1) / s.increment

/-- The reference edges up to and with the one of the output instant, in a cycle whose mark is clear (R123): the first at which the
phase has reached OutputPhase, or the next one when the phase stands there already, OutputPhase having been lowered. -/
def State.edgesToInstant (s : State) : Nat :=
  max 1 ((s.port.items.outputPhase * 65536 - s.time.acc.toNat + s.increment - 1) / s.increment)

/-- The reference edges up to and with the next one that brings an output instant or a boundary (R121, R123). -/
def State.edgesToEvent (s : State) : Nat :=
  if s.time.mark then s.edgesToBoundary else min s.edgesToInstant s.edgesToBoundary

/-- `n` edges pass, but none that brings an output instant or a boundary: each of those is a step of its own (log 9, DESIGN
CHOICE). -/
def State.elapseWithin (n : Nat) (s : State) : State := s.elapse (min n (s.edgesToEvent - 1))

end Sys2Proof.Machine
end

