-- ==== Sys2Proof/Machine/Schedule.lean ====
section
/-! DEFINITION. The store arbiter (R30), the prefetch side and its reader (R33 to R37), the schedule queue and the playback
position (R38 to R49), of the chapter Replay Schedule and Drive Store. -/

namespace Sys2Proof.Machine

/-! ### The store arbiter -/

/-- The prefetch side requests a burst: granted at once by an IDLE arbiter, otherwise waiting (R30). -/
def State.requestBurst (b : Burst) (s : State) : State :=
  { s with
    sched := { s.sched with burst := some b }
    arb := { s.arb with serving := s.arb.serving.or (some .prefetch) } }

/-- The supervisor side requests its chunk (R30, R31). -/
def State.requestChunk (c : Chunk) (s : State) : State :=
  { s with arb := { serving := s.arb.serving.or (some .supervisor), chunk := some c } }

/-- At a completion the arbiter turns to the waiting requests: a burst first, then a chunk, otherwise IDLE (R30). -/
def State.grant (s : State) : State :=
  { s with arb := { s.arb with
      serving := if s.sched.burst.isSome then some .prefetch else if s.arb.chunk.isSome then some .supervisor else none } }

/-! ### The reader -/

/-- The end marker (R33): set exactly when the reader position is none. -/
def State.endMarker (s : State) : Bool := s.sched.reader.isNone

/-- The sample burst that covers the reader position: to the end of the current repeat, up to 256 samples (R34). -/
def Reader.burst (r : Reader) : Burst :=
  .sample (r.entry.startPage * 4096 + r.offset) (min 256 (r.entry.length - r.offset)) false

/-- The reader tests the conditions of R34 and requests a sample burst when all of them hold. -/
def State.fetch (s : State) : State :=
  match s.sched.reader with
  | none => s
  | some r =>
    if s.sched.loaded && !s.sched.hold && s.sched.burst.isNone && decide (256 ≤ 1024 - s.sched.fifo.length) then
      s.requestBurst r.burst
    else s

/-- The reader position after `n` more samples (R35): to the next repeat at the entry's length, to the next entry after the
last repeat, none when no next entry exists. -/
def Reader.advance (r : Reader) (n : Nat) : Option Reader :=
  if r.offset + n < r.entry.length then some { r with offset := r.offset + n }
  else if r.rep < r.entry.repeats then some { r with rep := r.rep + 1, offset := 0 }
  else match r.later with
    | e :: rest => some { entry := e, rep := 1, offset := 0, later := rest }
    | [] => none

/-- The samples of a completed burst, in order: the debt is repaid first, the rest enter the FIFO (R35). -/
def State.takeSamples (samples : List Half) (s : State) : State :=
  let repaid := min s.sched.debt samples.length
  ({ s with sched := { s.sched with
      fifo := s.sched.fifo ++ samples.drop repaid
      debt := s.sched.debt - repaid
      reader := s.sched.reader.bind (·.advance samples.length) } }).count .discard repaid

/-- The burst with its void flag set, if it is a sample burst (R36). -/
def Burst.voided : Burst → Burst
  | .sample first length _ => .sample first length true
  | .shape k => .shape k

/-- The reader position that stands at the playback position (R36). -/
def Sched.readerAtHead (c : Sched) : Option Reader :=
  match c.queue, c.head with
  | e :: rest, some p => some { entry := e, rep := p.rep, offset := p.offset, later := rest }
  | _, _ => none

/-- A flush (R36). The next burst is requested by `fetch` once none is outstanding. -/
def State.flush (s : State) : State :=
  State.fetch { s with sched := { s.sched with
      fifo := [], debt := 0, burst := s.sched.burst.map Burst.voided, reader := s.sched.readerAtHead } }

/-- The fill condition (R37). -/
def State.filled (s : State) : Bool :=
  s.sched.head.isSome &&
    (decide (768 ≤ s.sched.fifo.length) ||
      (s.endMarker && s.sched.burst.isNone && decide (s.sched.debt = 0)))

/-! ### The playback position -/

/-- Next index of position (r, 0) of an entry whose head start index is `start`: H + (r - 1) × length (R42), modulo 2^32
(log 21, DEDUCED). -/
def indexAt (start : Word) (rep length : Nat) : Word := start + word ((rep - 1) * length)

/-- Positioning at (r, 0) of the head (R42). -/
def Sched.position (c : Sched) (e : Entry) (rep : Nat) (start : Word) : Sched :=
  { c with
    head := some { rep := rep, offset := 0, start := start }
    next := indexAt start rep e.length
    replay := indexAt start rep e.length
    current := some { tag := BitVec.ofNat 16 e.tag, rep := BitVec.ofNat 16 rep }
    previous := none }

/-- An entry placed behind the last one (R39): the head when the queue was empty, and the reader's when its end marker was
set. -/
def State.append (e : Entry) (s : State) : State :=
  let c := s.sched
  let placed := { c with
    queue := c.queue ++ [e]
    reader := match c.reader with
      | none => some { entry := e, rep := 1, offset := 0, later := [] }
      | some r => some { r with later := r.later ++ [e] } }
  State.fetch { s with sched := if c.queue.isEmpty then placed.position e 1 c.next else placed }

/-- The queue emptied (R40): no head, both position records empty, the FIFO flushed. -/
def State.discardQueue (s : State) : State :=
  State.flush { s with sched := { s.sched with queue := [], head := none, current := none, previous := none } }

/-- The rewind on entry to STOPPED or TRIPPED (R49). -/
def State.rewind (s : State) : State :=
  match s.sched.queue, s.sched.head with
  | e :: _, some p => State.flush { s with sched := s.sched.position e p.rep p.start }
  | _, _ => s.flush

/-- The position fields of the own frame (R48): tag, repeat, replay index. -/
def State.positionFields (s : State) : Half × Half × Word :=
  match s.sched.head, s.sched.current with
  | some _, some p => (p.tag, p.rep, s.sched.replay)
  | _, _ => (0, 0, s.sched.replay)

/-! ### Envelope and consumption -/

/-- Entry `k` of fade shape `s`, taken as 32768 above that (R29, R47). -/
def shapeEntry (shapes : Words) (s k : Nat) : Nat := min 32768 (shapes.read (s * 256 + k)).toNat

/-- The envelope of position (r, i) of an entry (R47). A fade of 0 samples is never in force. -/
def envelope (shapes : Words) (e : Entry) (r i : Nat) : Nat :=
  if r = 1 ∧ i < e.fadeIn then shapeEntry shapes e.shape (i * 256 / e.fadeIn)
  else if r = e.repeats ∧ 0 < e.fadeOut ∧ e.length - e.fadeOut ≤ i then
    shapeEntry shapes e.shape ((e.length - 1 - i) * 256 / e.fadeOut)
  else 32768

/-- What one consumed position hands on (R6, R43, R44): the sample, or none on underrun, the gain, the envelope, the replay
index, the offset, the record placed, the tag of an entry retired by it, and whether the schedule has ended. -/
structure Taken where
  sample  : Option Half
  gain    : Nat
  env     : Nat
  index   : Word
  offset  : Nat
  record  : PosRecord
  retired : Option Half
  ended   : Bool
  deriving DecidableEq, Repr

/-- The position after one more sample of the head `e` at `p`, whose next index becomes `next` (R43, R44): within the repeat,
to the next repeat, or with the head retired, to the next entry or to no head. -/
def Sched.advance (c : Sched) (e : Entry) (rest : List Entry) (p : HeadPos) (next : Word) : Sched :=
  if p.offset + 1 < e.length then { c with head := some { p with offset := p.offset + 1 }, next := next }
  else if p.rep < e.repeats then { c with head := some { p with rep := p.rep + 1, offset := 0 }, next := next }
  else { c with
    queue := rest
    head := if rest.isEmpty then none else some { rep := 1, offset := 0, start := next }
    next := next }

/-- The last position of an entry: the final sample of its final repeat (R44). -/
def lastPosition (e : Entry) (p : HeadPos) : Bool := decide (e.length ≤ p.offset + 1 ∧ e.repeats ≤ p.rep)

/-- One position consumed (R43 to R46): nothing without a head. On an empty FIFO the debt grows (R45), up to its largest value
(log 20, DEDUCED). -/
def Sched.consume (c : Sched) : Sched × Option Taken :=
  match c.queue, c.head with
  | e :: rest, some p =>
    let record : PosRecord := { tag := BitVec.ofNat 16 e.tag, rep := BitVec.ofNat 16 p.rep }
    let moved := { c with
      previous := c.current
      current := some record
      replay := c.next
      fifo := c.fifo.tail
      debt := if c.fifo.isEmpty then saturate32 c.debt 1 else c.debt }
    let retiring := lastPosition e p
    (moved.advance e rest p (c.next + 1),
      some {
        sample := c.fifo.head?
        gain := e.gain
        env := envelope c.shapes e p.rep p.offset
        index := c.next
        offset := p.offset
        record := record
        retired := if retiring then some (BitVec.ofNat 16 e.tag) else none
        ended := retiring && rest.isEmpty })
  | _, _ => (c, none)

end Sys2Proof.Machine
end

