-- ==== Sys2Proof/Machine/Drive.lean ====
section
/-! DEFINITION. The drive unit (chapter The Drive Value): the sample term, the coupling term, the sum with its limits and
rounding, the ramps of L and R, and the coupling banks. The limited flags stand in Flags. -/

namespace Sys2Proof.Machine

/-! ### The sample term -/

/-- The combined factor m of envelope, L and R, in two roundings (R7). -/
def combinedFactor (e l r : Nat) : Nat := (((e * l + 16384) / 32768) * r + 16384) / 32768

/-- The base term b in fine units (R8). -/
def baseTerm (d : Int) (g m : Nat) : Int := roundShift (d * g * m) 22

/-! ### The coupling term -/

/-- The coupling target index t (R9): the held position in PAUSED, otherwise n - Lag with the floor I_s. -/
def targetIndex (state : RunState) (n : Word) (lag : Nat) (runStart : Word) : Nat :=
  if state = .paused then n.toNat else max (n.toNat - lag) runStart.toNat

/-- The feedback chosen from a window for target t, and whether the choice is a hold (R11). The window stands in rising
index, so the entry with the largest index below t is the last one below it. -/
def chooseFeedback (w : List WindowRecord) (t : Nat) : Option (Int × Bool) :=
  match w.find? (fun x => x.index.toNat == t) with
  | some x => some (x.feedback, x.stale)
  | none =>
    match (w.filter (fun x => decide (x.index.toNat < t))).getLast? with
    | some x => some (x.feedback, true)
    | none => w.getLast?.map (fun x => (x.feedback, true))

/-- The hold run after a choice (R11), saturating at 255. -/
def nextHoldRun (run : Nat) (held : Bool) : Nat := if held then min 255 (run + 1) else 0

/-- The term of one station (R14). -/
def couplingTerm (c f : Int) : Int := roundShift (c * f) 15

/-- Station j forms a term (R10): not the own station, a coefficient other than 0, ACTIVE or SILENT. (R10's condition that the
window holds an entry is in `chooseFeedback`.) -/
def State.couples (s : State) (j : Station) : Bool :=
  stationNumber j != s.ownNumber && s.drive.active.get j != 0 &&
    (match (s.peer j).state with | .active => true | .silent => true | _ => false)

/-- The term of station j for target t with its hold run after (R10, R11, R14); none when j forms no term. -/
def State.termOf (s : State) (t : Nat) (j : Station) : Option (Int × Nat) :=
  if s.couples j then
    (chooseFeedback (s.peer j).window t).map fun (f, held) =>
      (couplingTerm (s.drive.active.get j) f, nextHoldRun (s.peer j).holdRun held)
  else none

/-- The coupling sum over all stations (R14). -/
def State.couplingSum (s : State) (t : Nat) : Int :=
  (stations.map (fun j => match s.termOf t j with | some (x, _) => x | none => 0)).sum

/-- The hold runs after the instant (R11): those of stations that form no term stand. -/
def State.updateHoldRuns (s : State) (t : Nat) : State :=
  stations.foldl
    (fun u j => match s.termOf t j with
      | some (_, run) => u.onPeer j (fun p => { p with holdRun := run })
      | none => u) s

/-- The stations whose hold run exceeds HoldLimit after the update of R11 at this instant (R12). -/
def State.lateStations (s : State) (t : Nat) : List Station :=
  stations.filter (fun j => match s.termOf t j with
    | some (_, run) => decide (s.items.holdLimit < run)
    | none => false)

/-! ### Ramps of L and R -/

/-- The factor at the k-th step of a ramp, rounded half up (R22). -/
def Ramp.value (r : Ramp) (k : Nat) : Nat :=
  (r.start + (2 * ((r.target : Int) - r.start) * k + r.length) / (2 * r.length)).toNat

/-- One step of the L ramp, if one runs (R22). -/
def Drive.stepLevel (d : Drive) : Drive :=
  match d.levelRamp with
  | none => d
  | some r =>
    { d with
      level := r.value (r.step + 1)
      levelRamp := if r.length ≤ r.step + 1 then none else some { r with step := r.step + 1 } }

/-- What a step of the R descriptor reports to the run controller (R25): nothing, the end of a ramp to 0, or the end of the
STOP descent. -/
inductive RampReport where
  | nothing
  | rampAtZero
  | descentAtZero
  deriving DecidableEq, Repr

/-- One step of the R descriptor (R22, R24) and its report (R25). A ramp with target 0 reports the step that brings R from
another value to 0, and its last step (log 11, DEDUCED). -/
def Drive.stepRun (stopStep : Nat) (d : Drive) : Drive × RampReport :=
  match d.runRamp with
  | none => (d, .nothing)
  | some (.ramp r) =>
    let v := r.value (r.step + 1)
    let last := decide (r.length ≤ r.step + 1)
    ({ d with ramp := v, runRamp := if last then none else some (.ramp { r with step := r.step + 1 }) },
      if r.target = 0 ∧ v = 0 ∧ (d.ramp ≠ 0 ∨ last = true) then .rampAtZero else .nothing)
  | some .descent =>
    let v := d.ramp - stopStep
    ({ d with ramp := v, runRamp := if v = 0 then none else some .descent },
      if v = 0 then .descentAtZero else .nothing)

/-- The value of L that a ramp begun now starts from (R23): at a boundary whose ramps have stepped, the value the boundary
before left; otherwise the present one. -/
def State.levelBase (s : State) : Nat :=
  match s.scratch.stepped with
  | some (l, _) => l
  | none => s.drive.level

/-- The value of R that a ramp or descent begun now starts from (R23). -/
def State.rampBase (s : State) : Nat :=
  match s.scratch.stepped with
  | some (_, r) => r
  | none => s.drive.ramp

/-- Set L at once to B, removing any L ramp (R23). -/
def State.setLevel (b : Nat) (s : State) : State :=
  { s with
    drive := { s.drive with level := b, levelRamp := none }
    scratch := { s.scratch with stepped := s.scratch.stepped.map (fun x => (b, x.2)) } }

/-- Ramp L from its present value to B over N (R23). At a boundary whose ramps have stepped it takes its first step here. -/
def State.rampLevel (b n : Nat) (s : State) : State :=
  let d := { s.drive with
    level := s.levelBase
    levelRamp := some { start := s.levelBase, target := b, length := n, step := 0 } }
  { s with drive := if s.scratch.stepped.isSome then d.stepLevel else d }

/-- A ramp of R to `target` over N installed, from 0 or from the present value (R23). -/
def State.installRamp (fromZero : Bool) (target n : Nat) (s : State) : State :=
  let v := if fromZero then 0 else s.rampBase
  { s with
    drive := { s.drive with ramp := v, runRamp := some (.ramp { start := v, target := target, length := n, step := 0 }) }
    scratch := { s.scratch with stepped := s.scratch.stepped.map (fun x => (x.1, v)) } }

/-- The STOP descent installed as the R descriptor (R24). -/
def State.installDescent (s : State) : State :=
  { s with drive := { s.drive with ramp := s.rampBase, runRamp := some .descent } }

/-- The freeze on entry to TRIPPED (R20): both ramp descriptors are discarded. -/
def State.freeze (s : State) : State :=
  { s with drive := { s.drive with levelRamp := none, runRamp := none } }

/-- The release by CLEAR from TRIPPED (R21): R becomes 0, L is kept. -/
def State.release (s : State) : State := { s with drive := { s.drive with ramp := 0 } }

end Sys2Proof.Machine
end

