-- ==== Sys2Proof/Machine/Flags.lean ====
section
/-! DEFINITION. The limiting and rounding of the drive value with its clip and slew flags (R15 to R19), and the levels of the
output lines (R63 to R67). -/

namespace Sys2Proof.Machine

/-- The value limited to the command range (R16). -/
def commandClamp (c : Items) (s : Int) : Int := clamp s (c.cmdMin * 256) (c.cmdMax * 256)

/-- The value limited to a move of SlewMax from P (R17). -/
def slewClamp (c : Items) (p s1 : Int) : Int := clamp s1 (p - c.slewMax) (p + c.slewMax)

/-- The code of a value (R4, R18): floor((v + 128) / 256). -/
def codeOf (v : Int) : Int := (v + 128) / 256

/-- The value that is rounded: with the residual when residual carry is on (R18). -/
def carriedValue (c : Items) (residual s2 : Int) : Int := if c.carry then s2 + residual else s2

/-- A code presented at the command output, with a strobe (R19, R63), which the model counts (log 23, DESIGN CHOICE). -/
def Drive.present (d : Drive) (code : Int) : Drive := { d with code := code, strobes := d.strobes + 1 }

/-- The full computation from the sum s (R16 to R19): both limits with their flags, the code with the residual, and its
presentation. With residual carry off the residual is written 0 (log 25, DEDUCED). -/
def Drive.compute (c : Items) (s : Int) (d : Drive) : Drive :=
  let s1 := commandClamp c s
  let s2 := slewClamp c d.prev s1
  let v := carriedValue c d.residual s2
  let limited := { d with
    clipFlag := s1 != s
    slewFlag := s2 != s1
    prev := s2
    residual := if c.carry then v - 256 * codeOf v else 0 }
  limited.present (codeOf v)

/-- The computation at an output instant with the clip and slew counters (R16, R17). -/
def State.computeDrive (sum : Int) (s : State) : State :=
  let t := { s with drive := s.drive.compute s.items sum }
  let t := if t.drive.clipFlag then t.bump .clip else t
  if t.drive.slewFlag then t.bump .slew else t

/-- The presentation at GO ONLINE (R4): P is the bias clamped to the command range, the residual 0. -/
def Drive.goOnline (c : Items) (d : Drive) : Drive :=
  let p := commandClamp c c.bias
  { d with prev := p, residual := 0 }.present (codeOf p)

/-! ### Output lines -/

/-- The part has supply and is in no reset. -/
def State.running (s : State) : Bool := s.cond == .running

/-- TRIP_N is high (R65): released while the trip line is deasserted, and through the pull-up while unpowered. -/
def State.tripNHigh (s : State) : Bool :=
  match s.cond with
  | .unpowered => true
  | .running => !s.run.trip
  | _ => false

/-- MARK is high (R66). While unpowered the part drives no line (R65) and the spec gives MARK no level; the model reads it as not high
(log 18, DESIGN CHOICE). -/
def State.markHigh (s : State) : Bool := s.running && s.sched.mark

/-- ATTN_N is high (R67): no record in the event queue, or unpowered, or in reset. -/
def State.attnNHigh (s : State) : Bool := !(s.running && !s.port.events.isEmpty)

/-- The command lines CMD15 to CMD0 (R63, R64): the presented code, 0 during reset; none driven while unpowered (R65). -/
def State.commandLines (s : State) : Option Half :=
  match s.cond with
  | .unpowered => none
  | .running => some (BitVec.ofInt 16 s.drive.code)
  | _ => some 0

end Sys2Proof.Machine
end

