-- ==== Sys2Proof/Machine/RunControl.lean ====
section
/-! DEFINITION. The run controller (chapter Run States): changes of the run state, the READY conditions, the ends of the ramps,
and what becomes of a stop request. -/

namespace Sys2Proof.Machine

/-! ### Changes of the run state -/

/-- A change of the run state (R71): RUN_STATE is posted and every last noted cause becomes none; leaving COUNTDOWN makes the
countdown order absent (R76); entering ASSEMBLY sets the assembly count to 0 (R73); entering STANDBY deasserts and entering
TRIPPED asserts the trip line (R97). -/
def State.changeState (new : RunState) (s : State) : State :=
  let t := s.post .runState (word new.code) (word s.run.state.code)
  { t with run := { t.run with
      state := new
      assembly := if new = .assembly then 0 else t.run.assembly
      countdown := if t.run.state = .countdown then none else t.run.countdown
      trip := match new with
        | .standby => false
        | .tripped => true
        | _ => t.run.trip
      noted := Vector.replicate 16 none } }

/-- The roster is complete: every expected entry is ACTIVE (R137; log 16, DEDUCED). -/
def State.rosterComplete (s : State) : Bool :=
  stations.all (fun j => !(s.peer j).expected || (s.peer j).state == .active)

/-- The four READY conditions (R74). -/
def State.readyConditions (s : State) : Bool :=
  s.sched.head.isSome && s.filled && s.servo.ready && s.rosterComplete

/-- The READY test, made at every event that can change a condition and at each entry into STANDBY or READY (R74); in READY an
incomplete roster leads to ASSEMBLY (R75, R78; log 36, DEDUCED). -/
def State.readyTest (s : State) : State :=
  match s.run.state with
  | .standby => if s.readyConditions then s.changeState .ready else s
  | .ready =>
    if !s.rosterComplete then s.changeState .assembly
    else if s.readyConditions then s
    else s.changeState .standby
  | _ => s

/-- The node enters STANDBY and tests the READY conditions there (R73, R74, R95, R96). -/
def State.enterStandby (s : State) : State := (s.changeState .standby).readyTest

/-- The node enters READY and tests the READY conditions there (R78, R84, R108). -/
def State.returnToReady (s : State) : State := (s.changeState .ready).readyTest

/-- What the report of an incomplete roster does (R73, R75). -/
def State.reportIncomplete (s : State) : State :=
  match s.run.state with
  | .assembly => { s with run := { s.run with assembly := 0 } }
  | .standby => s.changeState .assembly
  | .ready => s.changeState .assembly
  | _ => s

/-- The node enters STOPPED (R80): the schedule unit rewinds and refills at once (R49). -/
def State.enterStopped (s : State) : State := (s.changeState .stopped).rewind

/-! ### The ends of the ramps -/

/-- The run controller takes a report of the drive unit (R25): the end of a ramp to 0 in PAUSING leads to PAUSED (R79), the end
of the STOP descent in STOPPING to STOPPED (R80). -/
def State.takeReport (r : RampReport) (s : State) : State :=
  match r with
  | .nothing => s
  | .rampAtZero =>
    let t := s.bring .rampEnd
    if t.run.state = .pausing then t.changeState .paused else t
  | .descentAtZero =>
    let t := s.bring .rampEnd
    if t.run.state = .stopping then t.enterStopped else t

/-- R has been reported at 0 at this boundary: a ramp or descent begun later at it starts from 0 (R88). -/
def Scratch.atZero (x : Scratch) (r : RampReport) : Scratch :=
  if r = .nothing then x else { x with stepped := x.stepped.map (fun y => (y.1, 0)) }

/-- The R descriptor takes a step and the run controller its report. -/
def State.stepRunRamp (s : State) : State :=
  let (d, r) := s.drive.stepRun s.items.stopStep
  State.takeReport r { s with drive := d, scratch := s.scratch.atZero r }

/-- A ramp or descent just begun takes its first step at once when the ramps have already stepped at the boundary being taken;
otherwise at the next stepping (R22, R24). -/
def State.firstStep (s : State) : State := if s.scratch.stepped.isSome then s.stepRunRamp else s

/-- Ramp R to `target` over N, from 0 or from the present value (R23); not carried out while the STOP descent stands (R24). -/
def State.beginRamp (fromZero : Bool) (target n : Nat) (s : State) : State :=
  if s.drive.runRamp = some .descent then s else (s.installRamp fromZero target n).firstStep

/-- The act of a boundary that steps both ramps, in every state but OFFLINE and TRIPPED (R22). -/
def State.stepRamps (s : State) : State :=
  if s.run.state = .offline ∨ s.run.state = .tripped then s
  else
    State.stepRunRamp { s with
      drive := s.drive.stepLevel
      scratch := { s.scratch with stepped := some (s.drive.level, s.drive.ramp) } }

/-! ### Stop requests -/

/-- A stop request (R81). -/
structure StopRequest where
  cause     : Cause
  concerned : Nat
  origin    : Nat
  reason    : Nat
  deriving DecidableEq, Repr

/-- A request of the node's own: original origin the own station, original reason the cause (R81). -/
def State.localRequest (s : State) (c : Cause) (concerned : Nat) : StopRequest :=
  { cause := c, concerned := concerned, origin := s.ownNumber, reason := c.code }

/-- Detail 1 of STOP_TAKEN and STOP_NOTED (R81). -/
def StopRequest.detail1 (q : StopRequest) : Word := word (q.cause.code * 256 + q.concerned)

/-- Detail 2 of STOP_TAKEN and STOP_NOTED (R81). -/
def StopRequest.detail2 (q : StopRequest) : Word := word (q.origin * 256 + q.reason)

/-- The first-fault record that a request latches (R93). -/
def State.recordOf (s : State) (q : StopRequest) : FaultRecord :=
  { cause := q.cause.code, reason := q.reason, origin := q.origin, classT := q.cause.isT, concerned := q.concerned,
    state := s.run.state, cycle := s.time.cycle, replay := s.sched.replay,
    tag := (s.sched.current.map (·.tag)).getD 0, rep := (s.sched.current.map (·.rep)).getD 0,
    escalated := false, further := 0 }

/-- The record latched if it is empty (R93). -/
def State.latch (q : StopRequest) (s : State) : State :=
  { s with run := { s.run with record := s.run.record.or (some (s.recordOf q)) } }

/-- While the record is held, a request that reaches the run controller raises its further count, up to 255 (R94;
log 37, DEDUCED). -/
def State.countFurther (s : State) : State :=
  { s with run := { s.run with
      record := s.run.record.map (fun r => { r with further := min 255 (r.further + 1) }) } }

/-- The escalated flag of the record set (R86). -/
def State.escalate (s : State) : State :=
  { s with run := { s.run with record := s.run.record.map (fun r => { r with escalated := true }) } }

/-- The stop field set from a request (R92). -/
def State.setStopField (q : StopRequest) (s : State) : State :=
  { s with run := { s.run with stopField := some { origin := q.origin, reason := q.reason } } }

/-- A request is taken: counted and posted (R82). -/
def State.taken (q : StopRequest) (s : State) : State :=
  (s.bump .stopsTaken).post .stopTaken q.detail1 q.detail2

/-- The request is noted (R87): STOP_NOTED only when its cause differs from the last noted one of its station (log 24, DESIGN CHOICE). -/
def State.noteRequest (q : StopRequest) (s : State) : State :=
  let t := s.bump .stopsNoted
  match stationOf? q.concerned with
  | none => t.post .stopNoted q.detail1 q.detail2
  | some j =>
    if t.run.noted.get j = some q.cause then t
    else
      let u := t.post .stopNoted q.detail1 q.detail2
      { u with run := { u.run with noted := put u.run.noted j (some q.cause) } }

/-- A class S request in COUNTDOWN cancels the countdown (R84). -/
def State.cancelCountdown (q : StopRequest) (s : State) : State := (s.taken q).returnToReady

/-- The STOP descent begun (R23, R24). -/
def State.beginDescent (s : State) : State := s.installDescent.firstStep

/-- A class S request in RUN, PAUSING or PAUSED (R83). -/
def State.enterStopping (q : StopRequest) (s : State) : State :=
  ((((s.taken q).latch q).setStopField q).changeState .stopping).beginDescent

/-- The reader hold set or cleared (R36). -/
def State.setHold (b : Bool) (s : State) : State := { s with sched := { s.sched with hold := b } }

/-- A class T request takes the node to TRIPPED (R85, R86): an escalation in STOPPING. -/
def State.enterTripped (q : StopRequest) (s : State) : State :=
  let t := (s.taken q).latch q
  let t := if t.run.state = .stopping then t.escalate else t
  ((((t.setStopField q).changeState .tripped).freeze).setHold true).rewind

/-- The run controller takes a stop request according to run state and class (R82). -/
def State.request (q : StopRequest) (s : State) : State :=
  let t := s.countFurther
  match q.cause.isT, s.run.state with
  | _, .offline => s
  | true, .tripped => t.bump .stopsCounted
  | true, _ => t.enterTripped q
  | false, .assembly => t.noteRequest q
  | false, .standby => t.noteRequest q
  | false, .ready => t.noteRequest q
  | false, .countdown => t.cancelCountdown q
  | false, .run => t.enterStopping q
  | false, .pausing => t.enterStopping q
  | false, .paused => t.enterStopping q
  | false, .stopping => t.bump .stopsCounted
  | false, .stopped => t.bump .stopsCounted
  | false, .tripped => t.noteRequest q

/-- A request of a local cause for a station concerned. -/
def State.requestLocal (c : Cause) (concerned : Nat) (s : State) : State := s.request (s.localRequest c concerned)

/-- The ISOLATED condition (R91): both sides DOWN, a roster that is not empty, and a state in motion. -/
def State.isolated (s : State) : Bool :=
  s.ring.west.state == .down && s.ring.east.state == .down && s.items.roster != 0 && s.run.state.inMotion

/-- The ISOLATED request, made while its condition holds (R91). -/
def State.isolatedTest (s : State) : State :=
  if s.isolated then s.requestLocal .isolated s.ownNumber else s

/-! ### Assembly -/

/-- The assembly test at a boundary (R73). -/
def State.assemblyTest (s : State) : State :=
  if s.run.state = .assembly then
    if s.rosterComplete then
      let t := { s with run := { s.run with assembly := s.run.assembly + 1 } }
      if 16 ≤ t.run.assembly then (t.bring .assemblyComplete).enterStandby else t
    else { s with run := { s.run with assembly := 0 } }
  else s

/-! ### The countdown check -/

/-- Station j fails the countdown check (R77): an expected group peer that is not ACTIVE, or whose last frame, of the adoption
cycle + 2 or later, shows neither COUNTDOWN nor RUN. -/
def State.failsCountdown (s : State) (j : Station) : Bool :=
  let p := s.peer j
  p.expected && p.shares &&
    (p.state != .active ||
      (!earlier p.last.cycle (s.run.adoption + 2) && p.last.runState != 4 && p.last.runState != 5))

/-- The countdown aborted for station j (R78). -/
def State.abortCountdown (j : Station) (s : State) : State :=
  let p := s.peer j
  let shown : Nat := if p.state = .active then p.last.runState.toNat else 0
  ((s.post .countdownAbort (word (stationNumber j)) (word shown)).bump .countdownAbort).returnToReady

/-- The countdown check of a boundary (R77): the first failing peer in station order is named. -/
def State.countdownCheck (s : State) : State :=
  if s.run.state = .countdown then
    match stations.find? s.failsCountdown with
    | some j => s.abortCountdown j
    | none => s
  else s

end Sys2Proof.Machine
end

