-- ==== Sys2Proof/Machine/OrderUnit.lean ====
section
/-! DEFINITION. The order unit (chapter Group Orders): origination, the pending list, adoption from frames, and application at
the effective cycle. -/

namespace Sys2Proof.Machine

/-! ### Orders and the pending list -/

/-- The identity of an order (R99). -/
def Order.id (o : Order) : OrderId := { epoch := o.epoch, origin := o.origin }

/-- Detail 1 of the order events: origin × 16,777,216 + kind × 65,536 + epoch (R119). -/
def Order.identityWord (o : Order) : Word := word (o.origin * 16777216 + o.kind.code * 65536 + o.epoch.toNat)

/-- The ramp length normalised: a 0 is taken as 1 (R99). -/
def normalA (a : Nat) : Nat := if a = 0 then 1 else a

/-- The level normalised: at most 32768 for START and LEVEL, 0 for PAUSE and RESUME (R99). -/
def normalB (k : OrderKind) (b : Nat) : Nat :=
  match k with
  | .start => min 32768 b
  | .level => min 32768 b
  | .pause => 0
  | .resume => 0

/-- x stands ahead of y in the list: by effective cycle, then by epoch, both serially (R111). -/
def Order.precedes (x y : Order) : Bool :=
  earlier x.effective y.effective || (x.effective == y.effective && earlier x.epoch y.epoch)

/-- A record placed behind every entry that precedes it and ahead of every other (R111). -/
def insertOrder (o : Order) : List Order → List Order
  | [] => [o]
  | x :: rest => if x.precedes o then x :: insertOrder o rest else o :: x :: rest

/-- A value offered to the highest epoch seen: taken when it is later (R100). -/
def State.offerEpoch (e : Half) (s : State) : State :=
  { s with orders := { s.orders with highest := if later e s.orders.highest then e else s.orders.highest } }

/-- The own carried order, if one is carried (R98, R105). -/
def State.carriedOrder (s : State) : Option Order :=
  s.orders.carried.bind (fun e => s.orders.pending.find? (fun o => o.epoch == e && o.origin == s.ownNumber))

/-! ### Countdown entry -/

/-- The windows of all stations emptied, their hold runs set to 0 (R76, R150). -/
def State.emptyWindows (s : State) : State :=
  stations.foldl (fun t j => t.onPeer j (fun p => { p with window := [], holdRun := 0 })) s

/-- The node enters COUNTDOWN for an order (R76). -/
def State.enterCountdown (i : OrderId) (s : State) : State :=
  let t := s.changeState .countdown
  State.emptyWindows { t with run := { t.run with countdown := some i, adoption := t.time.cycle } }

/-! ### Origination -/

/-- The second test of an origination passes: no own carried order, and fewer than 4 entries (R101). -/
def State.mayOriginate (s : State) : Bool := s.orders.carried.isNone && decide (s.orders.pending.length < 4)

/-- The record that an origination forms (R102). -/
def State.newOrder (s : State) (k : OrderKind) (a b : Nat) : Order :=
  { kind := k, epoch := s.orders.highest + 1, origin := s.ownNumber, domain := s.items.domain,
    effective := s.time.cycle + word s.items.minLead, a := normalA a, b := normalB k b }

/-- An order is originated (R102); a START also enters COUNTDOWN. -/
def State.originate (k : OrderKind) (a b : Nat) (s : State) : State :=
  let o := s.newOrder k a b
  let t := { s with orders := { s.orders with
    pending := insertOrder o s.orders.pending, highest := o.epoch, carried := some o.epoch } }
  let t := t.bump .ordersOriginated
  if k = .start then t.enterCountdown o.id else t

/-! ### Adoption -/

/-- The order that a frame's order part carries, normalised; none for a kind outside 1 to 4 (R99, R193). -/
def Frame.order? (f : Frame) : Option Order :=
  (OrderKind.ofByte? f.orderKind).map fun k =>
    { kind := k, epoch := f.orderEpoch, origin := f.orderOrigin.toNat, domain := f.orderDomain, effective := f.effective,
      a := normalA f.argA.toNat, b := normalB k f.argB.toNat }

/-- A list entry removed by an order of the same epoch from a lower origin (R108). -/
def State.displace (e winner : Order) (s : State) : State :=
  let t := State.bump .ordersDisplaced { s with orders := { s.orders with pending := s.orders.pending.erase e } }
  let t := if e.origin = t.ownNumber ∧ t.orders.carried = some e.epoch then
      State.post .orderLost e.identityWord (word winner.origin) { t with orders := { t.orders with carried := none } }
    else t
  if t.run.state = .countdown ∧ t.run.countdown = some e.id then t.returnToReady else t

/-- The position fields of a frame equal the own ones (R109). -/
def State.samePosition (s : State) (f : Frame) : Bool := s.positionFields == (f.tag, f.rep, f.replay)

/-- A START just inserted, in READY: COUNTDOWN at equal position fields, otherwise START_MISMATCH (R109). -/
def State.considerStart (f : Frame) (o : Order) (s : State) : State :=
  if o.kind = .start ∧ s.run.state = .ready then
    if s.samePosition f then s.enterCountdown o.id else s.post .startMismatch o.identityWord f.replay
  else s

/-- Step 8 of R107: the order is inserted. -/
def State.insertAdopted (f : Frame) (o : Order) (s : State) : State :=
  let t := { s with orders := { s.orders with pending := insertOrder o s.orders.pending } }
  ((t.bump .ordersAdopted).post .orderAdopted o.identityWord o.effective).considerStart f o

/-- Steps 6 to 8 of R107. -/
def State.placeAdopted (f : Frame) (j : Station) (o : Order) (s : State) : State :=
  if !later o.effective s.time.cycle then s.requestLocal .orderSkew (stationNumber j)
  else if 4 ≤ s.orders.pending.length then s.requestLocal .orderOverflow (stationNumber j)
  else s.insertAdopted f o

/-- An identity is already in the list or in the history (R107, step 2). -/
def Orders.knows (u : Orders) (i : OrderId) : Bool := u.pending.any (fun x => x.id == i) || u.history.any (· == i)

/-- The list or the history holds the same epoch from a lower origin (R107, step 3). -/
def Orders.beats (u : Orders) (o : Order) : Bool :=
  u.pending.any (fun x => x.epoch == o.epoch && decide (x.origin < o.origin)) ||
    u.history.any (fun x => x.epoch == o.epoch && decide (x.origin < o.origin))

/-- The list entry of the same epoch from a higher origin (R107, step 4). -/
def Orders.loser? (u : Orders) (o : Order) : Option Order :=
  u.pending.find? (fun x => x.epoch == o.epoch && decide (o.origin < x.origin))

/-- The adoption steps of R107 for an order carried by station j's frame. -/
def State.adopt (f : Frame) (j : Station) (o : Order) (s : State) : State :=
  if o.domain &&& s.items.domain = 0 then s
  else if s.orders.knows o.id then s
  else if s.orders.beats o then s
  else match s.orders.loser? o with
    | some e => (s.displace e o).placeAdopted f j o
    | none =>
      if s.orders.history.any (fun x => x.epoch == o.epoch && decide (o.origin < x.origin)) then
        s.requestLocal .orderSkew (stationNumber j)
      else s.placeAdopted f j o

/-- The order unit takes an accepted frame of station j (R100, R106, R107). The frame's highest-epoch field is offered ahead of its order
epoch; R100 gives no order of the two (log 38, DESIGN CHOICE). -/
def State.takeOrderPart (f : Frame) (j : Station) (s : State) : State :=
  let t := s.offerEpoch f.highest
  match f.order? with
  | none => t
  | some o =>
    let u := t.offerEpoch o.epoch
    let p := u.peer j
    if p.expected && p.state.member && o.origin == stationNumber j then u.adopt f j o else u

/-! ### Application -/

/-- An identity added to the applied history, the oldest of nine removed (R112). -/
def addHistory (h : List OrderId) (i : OrderId) : List OrderId := (h ++ [i]).drop (h.length + 1 - 8)

/-- An entry leaves the list for the history, and the carried mark with it (R113). -/
def State.retireOrder (o : Order) (s : State) : State :=
  { s with orders := { s.orders with
      pending := s.orders.pending.erase o
      history := addHistory s.orders.history o.id
      carried := if o.origin = s.ownNumber ∧ s.orders.carried = some o.epoch then none else s.orders.carried } }

/-- ORDER_APPLIED and its counter (R114 to R117). -/
def State.noteApplied (o : Order) (s : State) : State :=
  (s.bump .ordersApplied).post .orderApplied o.identityWord o.effective

/-- An order declared inapplicable (R118). -/
def State.declareInapplicable (o : Order) (s : State) : State :=
  (s.bump .ordersInapplicable).post .orderInapplicable o.identityWord (word s.run.state.code)

/-- I_s becomes the replay index (R9). -/
def State.setRunStart (s : State) : State := { s with drive := { s.drive with runStart := s.sched.replay } }

/-- A START applied (R114). -/
def State.applyStart (o : Order) (s : State) : State :=
  ((((s.noteApplied o).changeState .run).setLevel o.b).setRunStart).beginRamp true 32768 o.a

/-- A PAUSE applied (R115). -/
def State.applyPause (o : Order) (s : State) : State :=
  ((s.noteApplied o).changeState .pausing).beginRamp false 0 o.a

/-- A RESUME applied (R116). -/
def State.applyResume (o : Order) (s : State) : State :=
  (((s.noteApplied o).changeState .run).setRunStart).beginRamp true 32768 o.a

/-- A LEVEL applied (R117). -/
def State.applyLevel (o : Order) (s : State) : State := (s.noteApplied o).rampLevel o.b o.a

/-- A due START (R114): the countdown check of this boundary comes first (log 29, DEDUCED). -/
def State.takeStart (o : Order) (s : State) : State :=
  if s.run.state = .countdown ∧ s.run.countdown = some o.id then
    let t := s.countdownCheck
    if t.run.state = .countdown then t.applyStart o else t.declareInapplicable o
  else s.declareInapplicable o

/-- A due order applied or declared inapplicable (R114 to R118). -/
def State.settleOrder (o : Order) (s : State) : State :=
  match o.kind, s.run.state with
  | .start, _ => s.takeStart o
  | .pause, .run => s.applyPause o
  | .resume, .paused => s.applyResume o
  | .level, .run => s.applyLevel o
  | .level, .pausing => s.applyLevel o
  | .level, .paused => s.applyLevel o
  | _, _ => s.declareInapplicable o

/-- One due entry taken (R113). -/
def State.takeOrder (o : Order) (s : State) : State := (s.retireOrder o).settleOrder o

/-- Due at a boundary: the effective cycle is not later than the count just reached (R113). -/
def State.due (s : State) (o : Order) : Bool := !later o.effective s.time.cycle

/-- The application of the due orders at a boundary, in list order, in every state from ASSEMBLY on (R113). All of them are one act
of the boundary: whether a stop request or the building of the frame may fall between two of them the spec does not say (log 3,
DESIGN CHOICE). -/
def State.takeDueOrders (s : State) : State :=
  if s.online then (s.orders.pending.filter s.due).foldl (fun t o => t.takeOrder o) s else s

end Sys2Proof.Machine
end

