-- ==== Sys2Proof/Machine/PeerTable.lean ====
section
/-! DEFINITION. The peer table (chapter Peer Table): admission and peer states, restarts, windows, skew checks, miss counting and
roster loss. -/

namespace Sys2Proof.Machine

/-- A change of an entry's state posts PEER_STATE with its cause (R146); an entry left in its state posts none. -/
def State.setPeerState (j : Station) (new : PeerState) (cause : Nat) (s : State) : State :=
  let old := (s.peer j).state
  if old = new then s
  else
    (s.onPeer j (fun p => { p with state := new })).post .peerState
      (word (stationNumber j * 256 + new.code)) (word (old.code * 256 + cause))

/-- What follows when the entry of station j has left ACTIVE (R155): the report of an incomplete roster when it was complete,
and for a group peer a stop request in RUN, PAUSING, PAUSED and STOPPING. -/
def State.rosterLoss (j : Station) (cause : Cause) (wasComplete : Bool) (s : State) : State :=
  let t := if wasComplete && !s.rosterComplete then s.reportIncomplete else s
  let p := t.peer j
  if p.expected && p.shares then
    match t.run.state with
    | .run => t.requestLocal cause (stationNumber j)
    | .pausing => t.requestLocal cause (stationNumber j)
    | .paused => t.requestLocal cause (stationNumber j)
    | .stopping => t.requestLocal cause (stationNumber j)
    | _ => t
  else t

/-- A change of an entry's state with the roster loss that leaving ACTIVE brings (R137, R155). -/
def State.movePeer (j : Station) (new : PeerState) (code : Nat) (cause : Cause) (s : State) : State :=
  let t := s.setPeerState j new code
  if (s.peer j).state = .active ∧ new ≠ .active ∧ (s.peer j).expected = true then
    t.rosterLoss j cause s.rosterComplete
  else t

/-- A frame's profile matches: revision 1 in the upper 4 bits and the rate in use in the lowest 2 (R139). -/
def matchesProfile (rate : Fin 3) (profile : Byte) : Bool :=
  profile.toNat / 16 == 1 && profile.toNat % 4 == rate.val

/-- PROFILE_MISMATCH for a profile that does not match (R139). -/
def State.reportProfile (j : Station) (profile : Byte) (s : State) : State :=
  if matchesProfile s.time.rate profile then s
  else s.post .profileMismatch (word (stationNumber j)) (word profile.toNat)

/-- The state that a station's flag and profile give its entry: LISTED when expected and matching, otherwise EXCLUDED
(R139, R144). -/
def State.evaluated (s : State) (j : Station) (profile : Byte) : PeerState :=
  if (s.peer j).expected && matchesProfile s.time.rate profile then .listed else .excluded

/-- A restart or a profile change of station j (R144, R145). PROFILE_MISMATCH is posted after PEER_STATE (log 13, DEDUCED) and before
the roster loss. -/
def State.restartPeer (j : Station) (profile : Byte) (s : State) : State :=
  let t := s.onPeer j (fun p => { p with restarts := min 65535 (p.restarts + 1), window := [], holdRun := 0 })
  let u := (t.setPeerState j (t.evaluated j profile) 5).reportProfile j profile
  if (s.peer j).state = .active ∧ (s.peer j).expected = true then u.rosterLoss j .peerRestart s.rosterComplete else u

/-- The first frame of an UNSEEN station admits it (R139). -/
def State.admission (j : Station) (profile : Byte) (s : State) : State :=
  (s.setPeerState j (s.evaluated j profile) 1).reportProfile j profile

/-- A frame changes whether an expected station's profile matches (R145). -/
def State.profileChanged (s : State) (j : Station) (profile : Byte) : Bool :=
  let p := s.peer j
  p.expected &&
    ((p.state.member && !matchesProfile s.time.rate profile) ||
      (p.state == .excluded && matchesProfile s.time.rate profile))

/-- Step 2 of R138: the profile test, admission, and a profile change handled as a restart. -/
def State.testProfile (j : Station) (profile : Byte) (s : State) : State :=
  let t :=
    if (s.peer j).state = .unseen then s.admission j profile
    else if s.profileChanged j profile then s.restartPeer j profile
    else s
  t.onPeer j (fun p => { p with profileMatch := matchesProfile s.time.rate profile })

/-- The stop fields of a frame as a receiver reads them (R193): origin and reason, or 0 and 0. -/
def Frame.stopFields (f : Frame) : Nat × Nat :=
  let o := f.stopOrigin.toNat
  let r := f.stopReason.toNat
  if 1 ≤ o ∧ o ≤ 16 ∧ 1 ≤ r ∧ r ≤ 15 then (o, r) else (0, 0)

/-- The feedback-stale flag of a frame (R191). -/
def Frame.stale (f : Frame) : Bool := f.flags.getLsbD 0

/-- The last frame record that a frame gives (R140, R193). -/
def Frame.record (f : Frame) : LastFrame :=
  { runState := f.runState, cycle := f.cycle, replay := f.replay, tag := f.tag, rep := f.rep, domain := f.domain,
    stopOrigin := f.stopFields.1, stopReason := f.stopFields.2, highest := f.highest, stale := f.stale }

/-- Step 3 of R138: the record, the shares-domain flag, the cycles since frame (R140), and SILENT to LISTED (R141). -/
def State.recordFrame (j : Station) (f : Frame) (s : State) : State :=
  let t := s.onPeer j (fun p =>
    { p with last := f.record, shares := f.domain &&& s.items.domain != 0, cycles := 0 })
  if (t.peer j).state = .silent then t.setPeerState j .listed 6 else t

/-- A record put at its place in rising index order. -/
def insertRecord (x : WindowRecord) : List WindowRecord → List WindowRecord
  | [] => [x]
  | y :: w => if y.index.toNat < x.index.toNat then y :: insertRecord x w else x :: y :: w

/-- The arrival of a record at a window (R149), and whether it was discarded as beyond the window. -/
def placeRecord (x : WindowRecord) (w : List WindowRecord) : List WindowRecord × Bool :=
  if w.any (fun y => y.index == x.index) then
    (w.map (fun y => if y.index = x.index then x else y), false)
  else if w.length < 8 then (insertRecord x w, false)
  else match w with
    | [] => ([x], false)
    | y :: rest => if x.index.toNat < y.index.toNat then (w, true) else (insertRecord x rest, false)

/-- The feedback record of a frame (R148). -/
def Frame.windowRecord (f : Frame) : WindowRecord :=
  { index := f.replay, feedback := f.feedback.toInt, stale := f.stale }

/-- Step 4 of R138: the window of an expected LISTED, ACTIVE or SILENT station is written (R148, R149). -/
def State.writeWindow (j : Station) (f : Frame) (s : State) : State :=
  let p := s.peer j
  if p.expected && p.state.member then
    let r := placeRecord f.windowRecord p.window
    let t := s.onPeer j (fun q => { q with window := r.1 })
    if r.2 then t.bump .beyondWindow else t
  else s

/-- The record that the tag check compares with for a frame index k beside the own index n (R154): none at n + 1. -/
def State.comparedRecord (s : State) (k : Word) : Option PosRecord :=
  let read := fun (r : Option PosRecord) => r.getD { tag := 0, rep := 0 }
  if k = s.sched.replay then some (read s.sched.current)
  else if k.toNat + 1 = s.sched.replay.toNat then some (read s.sched.previous)
  else none

/-- The skew checks are made on a frame of station j (R152). -/
def State.skewChecked (s : State) (j : Station) (f : Frame) : Bool :=
  let p := s.peer j
  p.expected && p.shares && (p.state == .listed || p.state == .active) && (f.runState == 5 || f.runState == 6) &&
    (s.run.state == .run || s.run.state == .pausing)

/-- Step 5 of R138: the index check (R153), then the tag check (R154). -/
def State.skewCheck (j : Station) (f : Frame) (s : State) : State :=
  if s.skewChecked j f then
    if 1 < ((f.replay.toNat : Int) - s.sched.replay.toNat).natAbs then
      (s.bump .indexSkew).requestLocal .indexSkew (stationNumber j)
    else match s.comparedRecord f.replay with
      | none => s
      | some r =>
        if r = { tag := f.tag, rep := f.rep } then s
        else (s.bump .tagSkew).requestLocal .tagSkew (stationNumber j)
  else s

/-- The peer table's handling of one accepted frame (R138). -/
def State.takeFrame (j : Station) (f : Frame) (restart : Bool) (s : State) : State :=
  let t := if restart then s.restartPeer j f.profile else s
  (((t.testProfile j f.profile).recordFrame j f).writeWindow j f).skewCheck j f

/-- The miss count and the miss test of station j at a boundary, in every state from ASSEMBLY on (R143). -/
def State.countMiss (j : Station) (s : State) : State :=
  if s.online && (s.peer j).state != .unseen then
    let t := s.onPeer j (fun p => { p with cycles := min 255 (p.cycles + 1) })
    if (t.peer j).state = .active ∧ t.items.missLimit < (t.peer j).cycles then
      ((t.bump .peerSilent).bring (.peerSilent j)).movePeer j .silent 3 .peerLost
    else t
  else s

/-- Step loss of station j reported by the timebase (R142): ACTIVE becomes LISTED. -/
def State.takeStepLoss (j : Station) (s : State) : State :=
  if (s.peer j).state = .active then s.movePeer j .listed 4 .stepLoss else s

/-- An offset within StepLimit promotes a LISTED entry (R142); a roster made complete lets the READY conditions hold (R74). -/
def State.takeOffset (j : Station) (offset : Int) (s : State) : State :=
  if offset.natAbs ≤ s.items.stepLimit ∧ (s.peer j).state = .listed then
    (s.setPeerState j .active 2).readyTest
  else s

/-- GO ONLINE: the expected flags follow the roster mask (R137). -/
def State.takeRoster (s : State) : State :=
  stations.foldl (fun t j => t.onPeer j (fun p => { p with expected := s.items.roster.getLsbD j.val })) s

end Sys2Proof.Machine
end

