-- ==== Sys2Proof/Machine/Timebase.lean ====
section
/-! DEFINITION. The timebase (chapter Rig Time): offsets, step loss, cycle count adoption and trim. The accumulator stands in
Ops. -/

namespace Sys2Proof.Machine

/-- A frame of station j is timing-usable (R125), with the age_total its copy carries. -/
def State.timingUsable (s : State) (j : Station) (age : Nat) : Bool :=
  let p := s.peer j
  p.expected && (p.state == .listed || p.state == .active) && decide (age < 65535)

/-- The offset before its limit (R126). -/
def rawOffset (f : Frame) (age : Nat) (stamp : Stamp) : Int :=
  signedDistance f.cycle stamp.cycle * 65536 + f.sendPhase.toNat + age - stamp.phase

/-- A stamp moved forward by an adoption (R129). -/
def Stamp.move (d : Word) (x : Stamp) : Stamp := { x with cycle := x.cycle + d }

/-- The stamp of a waiting frame moved forward (R129, R183). -/
def Queued.move (d : Word) : Queued → Queued
  | .own f => .own f
  | .forwarded f x => .forwarded f (x.move d)

/-- The stamps that a lane holds moved forward: of the frame now arriving and of the frames waiting (R129, R183). -/
def LaneRec.move (d : Word) (l : LaneRec) : LaneRec :=
  { l with queue := l.queue.map (Queued.move d), receiving := l.receiving.map (Stamp.move d) }

/-- The cycle count carried forward by D (R129, R130), with every stamp that is kept (log 27, DEDUCED): no boundary is taken. -/
def State.adoptCycle (j : Station) (d : Word) (s : State) : State :=
  let before := s.time.cycle
  let t := { s with
    time := { s.time with cycle := s.time.cycle + d }
    waiting := s.waiting.map (fun (c : Copy) => { c with stamp := c.stamp.move d })
    ring := { s.ring with a := s.ring.a.move d, b := s.ring.b.move d } }
  (t.bump .cycleAdoption).post .cycleAdopted (word (stationNumber j)) before

/-- D of R129 for a frame and its stamp. -/
def adoptionDistance (f : Frame) (stamp : Stamp) : Int := signedDistance f.cycle stamp.cycle

/-- The cycle count adoption of a timing-usable frame: in ASSEMBLY, at a D above 1 (R129). Answers the stamp, moved with it. -/
def State.considerAdoption (j : Station) (f : Frame) (stamp : Stamp) (s : State) : State × Stamp :=
  if s.run.state = .assembly ∧ 1 < adoptionDistance f stamp then
    (s.adoptCycle j (f.cycle - stamp.cycle), stamp.move (f.cycle - stamp.cycle))
  else (s, stamp)

/-- An offset is limited to -32767 .. 32767 (R126). -/
def limitOffset (o : Int) : Int := clamp o (-32767) 32767

/-- The offset recorded, the clamp counted, and the station added to the fresh set (R126). -/
def State.recordOffset (j : Station) (raw : Int) (s : State) : State :=
  let t := (s.onPeer j (fun p => { p with offset := limitOffset raw }))
  let t := { t with time := { t.time with fresh := put t.time.fresh j true } }
  if limitOffset raw = raw then t else t.bump .offsetClamp

/-- The step run of station j for an offset (R127): at 8 the step loss is counted and reported. -/
def State.updateStepRun (j : Station) (offset : Int) (s : State) : State :=
  if s.items.stepLimit < offset.natAbs then
    if 8 ≤ (s.peer j).stepRun + 1 then
      (((s.onPeer j (fun p => { p with stepRun := 0 })).bump .stepLoss).bring .stepLoss).takeStepLoss j
    else s.onPeer j (fun p => { p with stepRun := p.stepRun + 1 })
  else s.onPeer j (fun p => { p with stepRun := 0 })

/-- The timebase takes an accepted frame of station j (R125 to R129). -/
def State.takeTiming (j : Station) (f : Frame) (age : Nat) (stamp : Stamp) (s : State) : State :=
  if s.timingUsable j age then
    let (t, x) := s.considerAdoption j f stamp
    let raw := rawOffset f age x
    let o := limitOffset raw
    ((t.recordOffset j raw).updateStepRun j o).takeOffset j o
  else s

/-- The stations that take part in the trim of a boundary (R132). -/
def State.trimStations (s : State) : List Station :=
  stations.filter (fun j => s.time.fresh.get j && ((s.peer j).state == .listed || (s.peer j).state == .active))

/-- The mean offset of `n` stations with sum `sum`, rounded half up (R132). -/
def meanOffset (sum : Int) (n : Nat) : Int := (2 * sum + n) / (2 * n)

/-- The trim of a mean offset (R132). -/
def trimOf (m : Int) (trimMax : Nat) : Int := clamp ((m + 4) / 8) (-trimMax) trimMax

/-- The trim at a boundary, in every state from ASSEMBLY on (R132). -/
def State.computeTrim (s : State) : State :=
  if s.online then
    let used := s.trimStations
    let n := used.length
    let cleared := { s.time with fresh := Vector.replicate 16 false, used := n }
    if n = 0 then { s with time := cleared }
    else
      let m := meanOffset (used.map (fun j => (s.peer j).offset)).sum n
      { s with time := { cleared with trim := trimOf m s.items.trimMax, lastMean := m } }
  else s

end Sys2Proof.Machine
end

