-- ==== Sys2Proof/Machine/FrameLayout.lean ====
section
/-! DEFINITION. The layouts a ring partner sees (R191) and their checks (R192): the bytes of a cycle frame and their reading, the
CRC-32, and the lane word. Multi-byte fields stand most significant byte first. -/

namespace Sys2Proof.Machine

/-- The bytes of a 16-bit field. -/
def halfBytes (x : Half) : List Byte := [x.extractLsb' 8 8, x.extractLsb' 0 8]

/-- The bytes of a 24-bit field. -/
def tripleBytes (x : BitVec 24) : List Byte := [x.extractLsb' 16 8, x.extractLsb' 8 8, x.extractLsb' 0 8]

/-- The bytes of a 32-bit field. -/
def wordBytes (x : Word) : List Byte :=
  [x.extractLsb' 24 8, x.extractLsb' 16 8, x.extractLsb' 8 8, x.extractLsb' 0 8]

/-- Bytes 0 to 41 of a frame (R191). -/
def Frame.bytes (f : Frame) : List Byte :=
  [f.source, f.profile, f.hops, f.runState] ++ wordBytes f.cycle ++ halfBytes f.sendPhase ++ halfBytes f.age ++
  [f.domain, f.flags] ++ halfBytes f.tag ++ halfBytes f.rep ++ wordBytes f.replay ++ tripleBytes f.feedback ++
  [f.stopOrigin, f.stopReason, f.orderKind] ++ halfBytes f.orderEpoch ++ [f.orderOrigin, f.orderDomain] ++
  wordBytes f.effective ++ halfBytes f.argA ++ halfBytes f.argB ++ halfBytes f.highest

/-- Bytes 0 to 41 read as a frame (R191, R193); none unless there are exactly 42. -/
def Frame.ofBytes? : List Byte → Option Frame
  | b0 :: b1 :: b2 :: b3 :: b4 :: b5 :: b6 :: b7 :: b8 :: b9 :: b10 :: b11 :: b12 :: b13 :: b14 :: b15 :: b16 :: b17 :: b18 :: b19 ::
    b20 :: b21 :: b22 :: b23 :: b24 :: b25 :: b26 :: b27 :: b28 :: b29 :: b30 :: b31 :: b32 :: b33 :: b34 :: b35 :: b36 :: b37 :: b38 :: b39 :: b40 :: b41 :: [] =>
    some {
      source := b0, profile := b1, hops := b2, runState := b3, cycle := b4 ++ b5 ++ b6 ++ b7, sendPhase := b8 ++ b9,
      age := b10 ++ b11, domain := b12, flags := b13, tag := b14 ++ b15, rep := b16 ++ b17,
      replay := b18 ++ b19 ++ b20 ++ b21, feedback := b22 ++ b23 ++ b24, stopOrigin := b25, stopReason := b26,
      orderKind := b27, orderEpoch := b28 ++ b29, orderOrigin := b30, orderDomain := b31,
      effective := b32 ++ b33 ++ b34 ++ b35, argA := b36 ++ b37, argB := b38 ++ b39, highest := b40 ++ b41 }
  | _ => none

/-- The generator polynomial of R192, without its x^32 term. -/
def crcPolynomial : Word := 0x04C11DB7

/-- One bit taken into the CRC register. -/
def crcBit (c : Word) (bit : Bool) : Word :=
  if c.msb != bit then (c <<< 1) ^^^ crcPolynomial else c <<< 1

/-- One byte taken into the CRC register, most significant bit first. -/
def crcByte (c : Word) (b : Byte) : Word :=
  [7, 6, 5, 4, 3, 2, 1, 0].foldl (fun x k => crcBit x (b.getLsbD k)) c

/-- The CRC-32 of bytes in order: preset to all ones, the remainder complemented (R192). -/
def crc32 (bytes : List Byte) : Word := ~~~(bytes.foldl crcByte 0xFFFFFFFF)

/-- The 46 bytes of a frame between its symbols F and E, with the CRC as bytes 42 to 45 (R191, R192). -/
def Frame.wire (f : Frame) : List Byte := f.bytes ++ wordBytes (crc32 f.bytes)

/-- The 46 bytes of a frame in transmission. -/
def Sending.wire (x : Sending) : List Byte := x.frame.bytes ++ wordBytes x.crc

/-- What the ring ports make of the bytes between F and E (R180): the frame, or none when the length or the CRC is wrong. -/
def checkFrame (bytes : List Byte) : Option Frame :=
  if bytes.length = 46 ∧ bytes.drop 42 = wordBytes (crc32 (bytes.take 42)) then Frame.ofBytes? (bytes.take 42) else none

/-- The check byte of a lane word: the complement of profile XOR flags (R191). -/
def laneCheck (profile flags : Byte) : Byte := ~~~(profile ^^^ flags)

/-- The profile byte of a rate: revision 1, the rate code in the lowest 2 bits (R189, R191). -/
def profileByte (rate : Fin 3) : Byte := BitVec.ofNat 8 (16 + rate.val)

/-- The lane word that a side sends: profile, flags and check (R174). The remote-fault flag is set while the side is DOWN. In
reset (R174) and without supply the transmitters are silent. -/
def State.laneWordSent (s : State) (d : Side) : Option (Byte × Byte × Byte) :=
  if s.running then
    let flags : Byte := if (s.side d).state = .down then 1 else 0
    some (profileByte s.time.rate, flags, laneCheck (profileByte s.time.rate) flags)
  else none

end Sys2Proof.Machine
end

