-- ==== Sys2Proof/Machine/RingPorts.lean ====
section
/-! DEFINITION. The ring ports (chapter The Rig Ring): training of the cable sides, reception and forwarding, ring closure, the
transmit queues and transmitters, and the frame builder. -/

namespace Sys2Proof.Machine

/-! ### Side states and training -/

/-- Waiting frames lost when a side leaves UP are counted: forwarded ones in no-path, own ones in own-skipped (R178). -/
def Queued.countLost (l : Lane) : Queued → State → State
  | .own _, s => s.bump (.ownSkipped l)
  | .forwarded _ _, s => s.bump (.noPath l)

/-- The transmit queue of a lane emptied and counted (R178). -/
def State.emptyQueue (l : Lane) (s : State) : State :=
  ((s.lane l).queue.foldl (fun t q => q.countLost l t) s).onLane l (fun x => { x with queue := [] })

/-- A side state changes and SIDE_STATE is posted (R179). -/
def State.setSide (d : Side) (new : SideState) (cause : Nat) (s : State) : State :=
  let old := (s.side d).state
  (s.onSide d (fun x => { x with state := new })).post .sideState
    (word (d.code * 256 + new.code)) (word (old.code * 256 + cause))

/-- A side leaves UP or TRAINING for DOWN: the down hold starts at 10 µs (R176), from UP the queue is emptied (R178), and
the run controller tests ISOLATED (R91). SIDE_STATE stands ahead of the events of that request; neither R91 nor R179 gives an order
(log 40, DESIGN CHOICE). -/
def State.sideDown (d : Side) (cause : Nat) (s : State) : State :=
  let wasUp := (s.side d).state == .up
  let t := (s.setSide d .down cause).onSide d (fun x => { x with hold := 500 })
  let t := if wasUp then t.emptyQueue d.transmits else t
  t.isolatedTest

/-- A DOWN side whose hold has run out and whose signal is present enters TRAINING (R176). -/
def State.tryTraining (d : Side) (s : State) : State :=
  let x := s.side d
  if x.state = .down ∧ x.hold = 0 ∧ x.signal = true then
    (s.setSide d .training 1).onSide d (fun y => { y with words := 0 })
  else s

/-- An UP side falls back to TRAINING (R178). -/
def State.retrain (d : Side) (cause : Nat) (s : State) : State :=
  ((s.setSide d .training cause).onSide d (fun x => { x with words := 0 })).emptyQueue d.transmits

/-- A valid, matching lane word without remote fault on a side in TRAINING: at 8 in a row the side enters UP (R177). -/
def State.cleanWord (d : Side) (s : State) : State :=
  let t := s.onSide d (fun x => { x with words := x.words + 1 })
  if 8 ≤ (t.side d).words then
    (t.setSide d .up 2).onSide d (fun x => { x with fails := 0 })
  else t

/-- The valid-word count set to 0 (R177). -/
def State.clearWords (d : Side) (s : State) : State := s.onSide d (fun x => { x with words := 0 })

/-- A lane word received whole (R175 to R178): ignored in DOWN. -/
def State.takeLaneWord (d : Side) (profile flags check : Byte) (s : State) : State :=
  let valid := check == laneCheck profile flags
  let matching := matchesProfile s.time.rate profile
  let fault := flags.getLsbD 0
  match (s.side d).state with
  | .down => s
  | .training =>
    if !valid then (s.bump (.wordError d)).clearWords d
    else if !matching || fault then s.clearWords d
    else s.cleanWord d
  | .up =>
    if !valid then s.bump (.wordError d)
    else if !matching then s.retrain d 6
    else if fault then s.retrain d 5
    else s

/-! ### Reception -/

/-- The stamp kept since the frame's opening symbol (R124); without one, the present reading (log 17, DESIGN CHOICE). -/
def State.stampOf (s : State) (l : Lane) : Stamp := (s.lane l).receiving.getD s.stampNow

/-- A bad frame on an UP side is dropped and counted; the 8th in a row takes the side DOWN (R180, R178). -/
def State.badFrame (d : Side) (s : State) : State :=
  let t := (s.bump (.badFrame d)).onSide d (fun x => { x with fails := x.fails + 1 })
  if 8 ≤ (t.side d).fails then t.sideDown d 4 else t

/-- age_total of a frame received on a lane (R184). -/
def State.ageTotal (s : State) (l : Lane) (f : Frame) : Nat := min 65535 (f.age.toNat + s.laneDelay l)

/-- The hops remaining of a received frame: above 15 taken as 15 (R181). -/
def Frame.hopsTaken (f : Frame) : Nat := min 15 f.hops.toNat

/-- A delivery copy is made from GO ONLINE on (R184). -/
def State.deliver (l : Lane) (f : Frame) (stamp : Stamp) (s : State) : State :=
  if s.online then
    { s with waiting := s.waiting ++ [{ frame := f, lane := l, age := s.ageTotal l f, stamp := stamp }] }
  else s

/-- A frame forwarded onto its lane's queue, or dropped for want of a path or of room (R183, R185). -/
def State.forward (l : Lane) (f : Frame) (stamp : Stamp) (s : State) : State :=
  if (s.side l.outSide).state ≠ .up then s.bump (.noPath l)
  else if 16 ≤ (s.lane l).queue.length then s.bump (.queueFull l)
  else
    (s.onLane l (fun x =>
      { x with queue := x.queue ++ [.forwarded { f with hops := BitVec.ofNat 8 (f.hopsTaken - 1) } stamp] })).bump
      (.forwarded l)

/-- An own frame returning on a lane is removed (R182). -/
def State.ownReturn (l : Lane) (f : Frame) (s : State) : State :=
  let trip := s.ageTotal l f
  let wasClosed := (s.lane l).closed
  let t := (s.bump (.ownReturned l)).onLane l (fun x =>
    { x with returned := true, misses := 0, roundTrip := trip, returnedSeq := f.cycle.setWidth 16, closed := true })
  if wasClosed then t else t.post .ringClosed (word l.code) (word trip)

/-- A good frame handled by its source and its hop count (R181). -/
def State.goodFrame (l : Lane) (f : Frame) (stamp : Stamp) (s : State) : State :=
  let t := s.onSide l.inSide (fun x => { x with fails := 0 })
  if t.online && f.source.toNat == t.ownNumber then t.ownReturn l f
  else if f.hopsTaken = 0 then (t.bump (.hopExhausted l)).deliver l f stamp
  else (t.forward l f stamp).deliver l f stamp

/-- The frame on a lane is no longer arriving. -/
def State.endReception (l : Lane) (s : State) : State := s.onLane l (fun x => { x with receiving := none })

/-- A frame received on a lane: ignored in DOWN (R176), discarded unchecked in TRAINING (R177), checked in UP (R180). -/
def State.takeArrival (l : Lane) (closed : Bool) (bytes : List Byte) (s : State) : State :=
  let d := l.inSide
  let stamp := s.stampOf l
  let t := s.endReception l
  match (s.side d).state with
  | .down => t
  | .training => if closed then t.bump (.notUp d) else t
  | .up =>
    if closed then
      match checkFrame bytes with
      | some f => t.goodFrame l f stamp
      | none => t.badFrame d
    else t.badFrame d

/-! ### Transmission -/

/-- The time from a stamp to now, in phase units (R183). -/
def State.residence (s : State) (stamp : Stamp) : Int :=
  signedDistance s.time.cycle stamp.cycle * 65536 + s.phase - stamp.phase

/-- The age with which a forwarded frame leaves (R183; log 34, DESIGN CHOICE). -/
def State.ageOut (s : State) (l : Lane) (f : Frame) (stamp : Stamp) : Half :=
  BitVec.ofInt 16 (min 65535 ((f.age.toNat : Int) + s.laneDelay l + s.residence stamp))

/-- A frame's fields completed at its transmit start (R187): the send phase of an own frame, the age of a forwarded one. -/
def State.completed (s : State) (l : Lane) : Queued → Frame
  | .own f => { f with sendPhase := BitVec.ofNat 16 s.phase }
  | .forwarded f stamp => { f with age := s.ageOut l f stamp }

/-- A unit boundary of a lane's transmitter (R187): with the side UP and a frame waiting, the head of the queue leaves it and
its transmission begins; otherwise a lane word is sent. While a frame is in transmission there is no unit boundary. -/
def State.startTransmission (l : Lane) (s : State) : State :=
  match (s.lane l).queue, (s.lane l).sending with
  | q :: rest, none =>
    if (s.side l.outSide).state = .up then
      let f := s.completed l q
      s.onLane l (fun x => { x with queue := rest, sending := some { frame := f, crc := crc32 f.bytes } })
    else s
  | _, _ => s

/-! ### Ring closure -/

/-- The examination of one lane's returned flag at a boundary (R182). -/
def State.examineLane (l : Lane) (s : State) : State :=
  let x := s.lane l
  if x.returned then s.onLane l (fun y => { y with returned := false })
  else
    let n := min 4 (x.misses + 1)
    let t := s.onLane l (fun y => { y with misses := n })
    if n = 4 ∧ x.closed = true then
      ((t.onLane l (fun y => { y with closed := false })).bring (.ringOpen l)).post .ringOpen (word l.code)
        (word x.returnedSeq.toNat)
    else t

/-- The examination of both lanes at a boundary, in every state from ASSEMBLY on (R182). Lane A is examined ahead of lane B, so that
of two RING_OPEN records lane A's stands first; the spec gives no order (log 40, DESIGN CHOICE). -/
def State.examineLanes (s : State) : State := if s.online then (s.examineLane .a).examineLane .b else s

/-! ### The frame builder -/

/-- The own frame as it stands when it is built (R188, R189). Send phase and age are completed later. -/
def State.ownFrame (s : State) : Frame :=
  let pos := s.positionFields
  let carried := s.carriedOrder.filter (fun o => earlier s.time.cycle o.effective)
  let base : Frame := {
    source := BitVec.ofNat 8 s.ownNumber
    profile := profileByte s.time.rate
    hops := 15
    runState := BitVec.ofNat 8 s.run.state.code
    cycle := s.time.cycle
    sendPhase := 0
    age := 0
    domain := s.items.domain
    flags := if s.servo.stale then 1 else 0
    tag := pos.1
    rep := pos.2.1
    replay := pos.2.2
    feedback := BitVec.ofInt 24 s.servo.feedback
    stopOrigin := BitVec.ofNat 8 ((s.run.stopField.map (·.origin)).getD 0)
    stopReason := BitVec.ofNat 8 ((s.run.stopField.map (·.reason)).getD 0)
    orderKind := 0
    orderEpoch := 0
    orderOrigin := 0
    orderDomain := 0
    effective := 0
    argA := 0
    argB := 0
    highest := s.orders.highest }
  match carried with
  | none => base
  | some o =>
    { base with
      orderKind := BitVec.ofNat 8 o.kind.code
      orderEpoch := o.epoch
      orderOrigin := BitVec.ofNat 8 o.origin
      orderDomain := o.domain
      effective := o.effective
      argA := BitVec.ofNat 16 o.a
      argB := BitVec.ofNat 16 o.b }

/-- A queued frame is a forwarded one. -/
def Queued.isForwarded : Queued → Bool
  | .own _ => false
  | .forwarded _ _ => true

/-- A copy of the own frame placed ahead of every forwarded frame of a lane, or counted as skipped (R186). With 16 forwarded
frames waiting the newest is dropped. An own frame still waiting gives way to the new one (log 12, DEDUCED). -/
def State.placeOwn (f : Frame) (l : Lane) (s : State) : State :=
  if (s.side l.outSide).state ≠ .up then s.bump (.ownSkipped l)
  else
    let others := (s.lane l).queue.filter Queued.isForwarded
    let t := s.onLane l (fun x => { x with queue := .own f :: others.take 15 })
    if 16 ≤ others.length then t.bump (.queueFull l) else t

/-- The own frame built and placed at a boundary, in every state from ASSEMBLY on (R186, R188). -/
def State.buildFrame (s : State) : State :=
  if s.online then (s.placeOwn s.ownFrame .a).placeOwn s.ownFrame .b else s

end Sys2Proof.Machine
end

