-- ==== Sys2Proof/Machine/Acceptance.lean ====
section
/-! DEFINITION. The duplicate filter (chapter Frame Acceptance): the five outcomes of a delivery copy, path health, and the
hand-over of an accepted copy to the peer table, the timebase, the order unit and the run controller. -/

namespace Sys2Proof.Machine

/-- The sequence number of a frame: the low 16 bits of its cycle count (R159). -/
def Frame.sequence (f : Frame) : Half := f.cycle.setWidth 16

/-- A filter entry put anew. -/
def State.setFilter (j : Station) (e : FilterEntry) (s : State) : State := { s with filter := put s.filter j e }

/-- The run controller reads the stop field of an accepted frame of station j (R90). -/
def State.takeStopPart (j : Station) (f : Frame) (s : State) : State :=
  let p := s.peer j
  let (origin, reason) := f.stopFields
  if p.expected && p.state.member && origin != 0 && f.domain &&& s.items.domain != 0 then
    s.request { cause := .peerStop, concerned := stationNumber j, origin := origin, reason := reason }
  else s

/-- The hand-over of one accepted copy (R169), in the order of its four blocks. -/
def State.handOver (j : Station) (c : Copy) (restart : Bool) (s : State) : State :=
  (((s.takeFrame j c.frame restart).takeTiming j c.frame c.age c.stamp).takeOrderPart c.frame j).takeStopPart j c.frame

/-- The entry that an acceptance sets (R161, R162, R166): the copy's sequence, on its lane alone. -/
def acceptedEntry (c : Copy) (singleRun : Nat) : FilterEntry :=
  { valid := true, last := c.frame.sequence, onA := c.lane == .a, onB := c.lane == .b, staleRun := 0,
    singleRun := singleRun }

/-- A copy's lane is in the lanes delivered. -/
def FilterEntry.delivered (e : FilterEntry) : Lane → Bool
  | .a => e.onA
  | .b => e.onB

/-- A lane added to the lanes delivered (R163). -/
def FilterEntry.addLane (e : FilterEntry) : Lane → FilterEntry
  | .a => { e with onA := true }
  | .b => { e with onB := true }

/-- The last sequence was delivered on one lane only (R167). -/
def FilterEntry.onOneLane (e : FilterEntry) : Bool := e.onA != e.onB

/-- The single-lane run after a newer acceptance (R167). -/
def FilterEntry.nextSingleRun (e : FilterEntry) : Nat := if e.onOneLane then min 64 (e.singleRun + 1) else 0

/-- PATH_DEGRADED, when the increment brings the single-lane run to 64 (R167). -/
def State.reportPath (j : Station) (e : FilterEntry) (s : State) : State :=
  if e.singleRun < 64 ∧ e.nextSingleRun = 64 then
    (s.bring .pathDegraded).post .pathDegraded (word (stationNumber j)) (if e.onA then 1 else 2)
  else s

/-- The gap of a newer acceptance counted (R162). -/
def State.countGap (d : Nat) (s : State) : State :=
  if 1 < d then (s.bump .gap).count .missed (d - 1) else s

/-- The first acceptance of a station (R161). -/
def State.acceptFirst (j : Station) (c : Copy) (s : State) : State :=
  ((s.setFilter j (acceptedEntry c 0)).bump .accepted).handOver j c false

/-- A newer copy (R162); PATH_DEGRADED precedes the hand-over (R170). -/
def State.acceptNewer (j : Station) (c : Copy) (e : FilterEntry) (d : Nat) (s : State) : State :=
  (((((s.reportPath j e).countGap d).setFilter j (acceptedEntry c e.nextSingleRun)).bump .accepted)).handOver j c false

/-- A copy at d = 0 (R163, R164). -/
def State.discardEqual (j : Station) (c : Copy) (e : FilterEntry) (s : State) : State :=
  if e.delivered c.lane then s.bump .repeated else (s.setFilter j (e.addLane c.lane)).bump .duplicate

/-- A stale copy: discarded and counted below 16 in a run (R165), accepted and resynchronised at 16 (R166). -/
def State.takeStale (j : Station) (c : Copy) (e : FilterEntry) (s : State) : State :=
  if e.staleRun + 1 < 16 then (s.setFilter j { e with staleRun := e.staleRun + 1 }).bump .stale
  else
    ((((s.bring .resynchronisation).setFilter j (acceptedEntry c 0)).bump .resync).bump .accepted).handOver j c true

/-- The filter judges a copy of station j (R160). -/
def State.judge (j : Station) (c : Copy) (s : State) : State :=
  let e := s.filter.get j
  let d := (c.frame.sequence - e.last).toNat
  if !e.valid then s.acceptFirst j c
  else if d = 0 then s.discardEqual j c e
  else if d < 32768 then s.acceptNewer j c e d
  else s.takeStale j c e

/-- The filter takes one copy whole (R159). -/
def State.takeCopy (c : Copy) (s : State) : State :=
  match stationOf? c.frame.source.toNat with
  | none => s.bump .sourceInvalid
  | some j => s.judge j c

/-- The filter takes the waiting copy at place `n` (R159, R168; log 22, DESIGN CHOICE); without one nothing is taken. -/
def State.takeWaiting (n : Nat) (s : State) : State :=
  match s.waiting[n]? with
  | none => s
  | some c => State.takeCopy c { s with waiting := s.waiting.eraseIdx n }

end Sys2Proof.Machine
end

