-- ==== Sys2Proof/Machine/ServoSide.lean ====
section
/-! DEFINITION. The servo side (chapter Servo Side): the feedback input, the latch and the checks at a boundary, and the
servo-ready input. -/

namespace Sys2Proof.Machine

/-- Bits received most significant first, as a number (R54). -/
def bitsValue (bits : List Bool) : Nat := bits.foldl (fun n b => 2 * n + (if b then 1 else 0)) 0

/-- FB_FRM falls after `bits` (R54): exactly 24 of them are a word received whole; any other number is bad framing. -/
def State.receiveWord (bits : List Bool) (s : State) : State :=
  let t := { s with servo := { s.servo with receiveCount := min 255 bits.length } }
  if bits.length = 24 then
    { t with servo := { t.servo with latest := some (BitVec.ofNat 24 (bitsValue bits)).toInt, fresh := true } }
  else t.bump .feedbackFraming

/-- The latch of a boundary (R55). -/
def State.latchFeedback (s : State) : State :=
  if s.servo.fresh then
    { s with servo := { s.servo with
        feedback := s.servo.latest.getD 0, stale := false, staleRun := 0, fresh := false } }
  else
    State.bump .feedbackStale { s with servo := { s.servo with
        stale := true, staleRun := min 255 (s.servo.staleRun + 1), fresh := false } }

/-- A value lies within [FbMin, FbMax]. -/
def inFeedbackRange (c : Items) (v : Int) : Bool := decide (c.fbMin ≤ v ∧ v ≤ c.fbMax)

/-- The range check of a boundary (R58). -/
def State.checkRange (s : State) : State :=
  if inFeedbackRange s.items s.servo.feedback then s
  else
    let t := s.bump .feedbackRange
    if t.servo.ready then t.requestLocal .feedbackLimit t.ownNumber else t

/-- The loss check of a boundary (R57). -/
def State.checkLoss (s : State) : State :=
  if s.servo.ready && decide (s.items.staleLimit ≤ s.servo.staleRun) then
    (s.bring .feedbackLoss).requestLocal .feedbackLoss s.ownNumber
  else s

/-- Both feedback checks, in every state but OFFLINE, FEEDBACK_LIMIT first (R57, R58). -/
def State.checkFeedback (s : State) : State := if s.online then s.checkRange.checkLoss else s

/-- The servo-ready state changes (R60): SERVO_READY is posted; an assertion sets the stale run to 0; a loss in motion sends
one request (R62); the READY conditions are tested (R61, R74). SERVO_READY stands ahead of the events of the request or of the
READY test (log 13, DEDUCED). -/
def State.setReady (level : Bool) (s : State) : State :=
  if s.servo.ready = level then s
  else
    let t := State.post .servoReady (flagWord level) s.time.cycle { s with servo := { s.servo with
        ready := level, staleRun := if level then 0 else s.servo.staleRun } }
    if !level && t.run.state.inMotion then t.requestLocal .servoNotReady t.ownNumber else t.readyTest

end Sys2Proof.Machine
end

