-- ==== Sys2Proof/Machine/Cycle.lean ====
section
/-! DEFINITION. The cycle boundary (R121) with every act it brings, and the output instant (R123) with its consumption,
computation and reports. The order of acts and reports that the spec leaves open is the operand's (log 3, DESIGN CHOICE). -/

namespace Sys2Proof.Machine

/-! ### The cycle boundary -/

/-- The acts of a boundary in the order taken where the command names none. -/
def boundaryActions : List BoundaryAction :=
  [.servoChecks] ++ stations.map .peerMiss ++
    [.ringClosure, .isolated, .assemblyTest, .countdownCheck, .orders, .rampStep, .trim, .frameBuild]

/-- Named members first, in the order given and once each, then the others in their own order. -/
def orderedBy {α : Type} [DecidableEq α] (first all : List α) : List α :=
  (first.filter (fun x => decide (x ∈ all))).eraseDups ++ all.filter (fun x => decide (x ∉ first))

/-- One act of a boundary. -/
def State.act (s : State) : BoundaryAction → State
  | .servoChecks => s.checkFeedback
  | .rampStep => s.stepRamps
  | .assemblyTest => s.assemblyTest
  | .countdownCheck => s.countdownCheck
  | .orders => s.takeDueOrders
  | .trim => s.computeTrim
  | .peerMiss j => s.countMiss j
  | .ringClosure => s.examineLanes
  | .isolated => s.isolatedTest
  | .frameBuild => s.buildFrame

/-- The marker pulse count falls at a boundary, and the line with its end (R51). -/
def State.countPulse (s : State) : State :=
  if s.sched.pulse = 0 then s
  else if s.sched.pulse = 1 then
    State.bring .pulseEnd { s with sched := { s.sched with pulse := 0, mark := false } }
  else { s with sched := { s.sched with pulse := s.sched.pulse - 1 } }

/-- The boundary opened (R121): the edge that carries is reached, the cycle count rises, the output mark is cleared. -/
def State.openCycle (s : State) : State :=
  let t := s.elapse s.edgesToBoundary
  { t with time := { t.time with cycle := t.time.cycle + 1, mark := false } }

/-- A cycle boundary with all its acts. The latch comes first: the checks and the frame read what it fixed (R55, R56). -/
def State.boundary (first : List BoundaryAction) (s : State) : State :=
  (orderedBy first boundaryActions).foldl State.act (s.openCycle.latchFeedback.countPulse)

/-! ### The marker unit -/

/-- The marker slots in slot order (R50). -/
def Items.slots (c : Items) : List (Nat × MarkerSlot) := [(0, c.slot0), (1, c.slot1), (2, c.slot2), (3, c.slot3)]

/-- A slot matches a tag and a repeat (R50). -/
def MarkerSlot.hits (m : MarkerSlot) (r : PosRecord) : Bool :=
  m.enable && (r.tag ^^^ m.keyTag) &&& ~~~m.tagMask == 0 && (r.rep ^^^ m.keyRepeat) &&& ~~~m.repeatMask == 0

/-- Detail 2 of the marker events: tag × 65536 + repeat (R50, R52). -/
def PosRecord.detail (r : PosRecord) : Word := word (r.tag.toNat * 65536 + r.rep.toNat)

/-- The action of a matching slot (R50 to R52, R103). -/
def State.runMarker (k : Nat) (m : MarkerSlot) (r : PosRecord) (s : State) : State :=
  match m.action with
  | .pulse => { s with sched := { s.sched with mark := true, pulse := s.items.pulseCycles } }
  | .pause =>
    if s.mayOriginate then s.originate .pause s.items.pauseLength 0
    else s.post .markerPauseDropped (word k) r.detail
  | .note => s

/-- The evaluation of all slots for a record (R50). -/
def State.evaluateMarkers (r : PosRecord) (s : State) : State :=
  s.items.slots.foldl
    (fun t x => if x.2.hits r then State.runMarker x.1 x.2 r (t.post .marker (word x.1) r.detail) else t) s

/-! ### The output instant -/

/-- What an output instant has found, for its reports (log 31, DEDUCED): the run state at the instant, the consumed position, the apply request
served, the replay index n, and the stations that are late. -/
structure InstantFacts where
  state  : RunState
  taken  : Option Taken
  served : Option ApplyRequest
  index  : Word
  late   : List Station
  deriving DecidableEq, Repr

/-- The apply request is served at this instant (R27): NOW always; AT_REPEAT at an offset-0 position in the playing states, and
at any instant of another state. -/
def servesRequest (q : ApplyRequest) (state : RunState) (taken : Option Taken) : Option ApplyRequest :=
  match q with
  | .none => none
  | .now => some .now
  | .atRepeat =>
    if state.playing then
      (match taken with
        | some t => if t.offset = 0 then some .atRepeat else none
        | none => none)
    else some .atRepeat

/-- The pending bank copied into the active one, the request NONE (R27). -/
def Drive.applyBank (d : Drive) : Drive := { d with active := d.pendingBank, apply := .none }

/-- The replay index n of an instant, which stands in the playing states and PAUSED (R6, R9, R46). -/
def instantIndex (taken : Option Taken) (replay : Word) : Word :=
  match taken with
  | some t => t.index
  | none => replay

/-- The base term of an instant (R6 to R8): 0 when no position is consumed. On underrun the sample is the held one. -/
def Drive.base (d : Drive) (taken : Option Taken) : Int :=
  match taken with
  | some t => baseTerm d.held t.gain (combinedFactor t.env d.level d.ramp)
  | none => 0

/-- A consumed sample becomes the held sample (R6); on underrun the held one stands. -/
def Drive.hold (d : Drive) (taken : Option Taken) : Drive :=
  match taken.bind (·.sample) with
  | some x => { d with held := x.toInt }
  | none => d

/-- The states in which the coupling acts (R5). -/
def RunState.coupling (r : RunState) : Bool := r.playing || r == .paused

/-- The states in which the instant computes (R5). -/
def RunState.computes (r : RunState) : Bool := r != .offline && r != .tripped

/-- The drive unit at an instant (R5 to R19), after the consumption and the serving of a request: the hold runs and the
computed code. -/
def State.driveInstant (state : RunState) (taken : Option Taken) (n : Word) (s : State) : State :=
  let t := targetIndex state n s.items.lag s.drive.runStart
  let coupled := if state.coupling then s.couplingSum t else 0
  let u := if state.coupling then s.updateHoldRuns t else s
  if state.computes then u.computeDrive (u.drive.base taken + coupled + u.items.bias) else u

/-- One report of an output instant. Detail 2 of COUPLING_APPLIED is 0 where no position stands (log 19, DEDUCED). SEGMENT_DONE and the
SCHEDULE_END request of R44 are one report, as are the slots of one marker evaluation (R50): whether another report of the instant may
stand between their parts the spec does not say (log 3, DESIGN CHOICE). -/
def State.report (f : InstantFacts) (s : State) : InstantReport → State
  | .coupling =>
    match f.served with
    | none => s
    | some q =>
      s.post .couplingApplied (if q = .now then 1 else 2) (if f.state.coupling then f.index else 0)
  | .segment =>
    match f.taken with
    | none => s
    | some t =>
      match t.retired with
      | none => s
      | some tag =>
        let u := s.post .segmentDone (word tag.toNat) t.index
        if t.ended then u.requestLocal .scheduleEnd u.ownNumber else u
  | .underrun =>
    match f.taken with
    | none => s
    | some t =>
      if t.sample.isNone && (f.state == .run || f.state == .pausing) then s.requestLocal .driveUnderrun s.ownNumber
      else s
  | .markers =>
    match f.taken with
    | none => s
    | some t => if f.state = .run ∧ t.offset = 0 then s.evaluateMarkers t.record else s
  | .late j =>
    if j ∈ f.late then (s.bring (.peerLate j)).requestLocal .peerLate (stationNumber j) else s

/-- The reports of an instant in the order taken where the command names none. -/
def instantReports : List InstantReport :=
  [.coupling, .segment, .markers, .underrun] ++ stations.map .late

/-- The position consumed at an instant, in the playing states (R43); an underrun is counted (R45). -/
def State.consume (s : State) : State × Option Taken :=
  if s.run.state.playing then
    let (c, taken) := s.sched.consume
    let t := { s with sched := c, drive := s.drive.hold taken }
    (match taken with
      | some x => if x.sample.isNone then t.bump .underrun else t
      | none => t, taken)
  else (s, none)

/-- The facts of an instant: the consumption, the serving of an apply request before the computation, and the computation. -/
def State.instantFacts (s : State) : State × InstantFacts :=
  let state := s.run.state
  let (t, taken) := s.consume
  let served := servesRequest t.drive.apply state taken
  let u := if served.isSome then { t with drive := t.drive.applyBank } else t
  let n := instantIndex taken u.sched.replay
  let late :=
    if state == .run || state == .pausing || state == .paused then
      u.lateStations (targetIndex state n u.items.lag u.drive.runStart)
    else []
  (u.driveInstant state taken n,
    { state := state, taken := taken, served := served, index := n, late := late })

/-- The schedule unit and the drive unit act at an output instant, the reports follow, and the reader tests its conditions
after a consumption (R34). -/
def State.actInstant (first : List InstantReport) (s : State) : State :=
  let (t, f) := s.instantFacts
  let u := (orderedBy first instantReports).foldl (State.report f) t
  if f.taken.isSome then u.fetch else u

/-- The output instant taken at the edge that stands (R123): the mark is set, and the units act. -/
def State.takeInstant (first : List InstantReport) (s : State) : State :=
  State.actInstant first { s with time := { s.time with mark := true } }

/-- The output instant of a cycle (R123): at the first edge at which the phase has reached OutputPhase, provided the mark is
clear. -/
def State.instant (first : List InstantReport) (s : State) : State :=
  if s.time.mark then s else (s.elapse s.edgesToInstant).takeInstant first

/-- The cycle brought to its end (R121, R123): its output instant first, where that is still to come, then the boundary. The
reports of an instant taken on the way stand in the model's own order (log 9, DESIGN CHOICE). -/
def State.endCycle (first : List BoundaryAction) (s : State) : State := (s.instant []).settle.boundary first

end Sys2Proof.Machine
end

