-- ==== Sys2Proof/Machine/Operands.lean ====
section
/-! DEFINITION. The supervisor port's handling of a command transaction (R196 to R199, R202): taking or turning away, the reply,
and the reading and range tests of argument words. -/

namespace Sys2Proof.Machine

/-! ### Argument words -/

/-- The k-th argument word, counted from 0; 0 where there is none. -/
def argAt (args : List Word) (k : Nat) : Word := args.getD k 0

/-- An unsigned word lies in a range. -/
def inRange (w : Word) (lo hi : Nat) : Bool := decide (lo ≤ w.toNat ∧ w.toNat ≤ hi)

/-- A two's-complement word lies in a range. -/
def inSignedRange (w : Word) (lo hi : Int) : Bool := decide (lo ≤ w.toInt ∧ w.toInt ≤ hi)

/-- The position, counted from 1, of the first test that fails (R199). -/
def firstOffence : List Bool → Option Nat
  | [] => none
  | true :: rest => (firstOffence rest).map (· + 1)
  | false :: _ => some 1

/-! ### Taking and finishing -/

/-- The reply takes its final status and result words, and no command is left in progress (R198). -/
def State.finish (status : Status) (words : List Word) (s : State) : State :=
  { s with port := { s.port with
      progress := none
      reply := s.port.reply.map (fun r => { r with status := status, words := words }) } }

/-- The reply is final while the command stays in progress (R209). -/
def State.replyOk (s : State) : State :=
  { s with port := { s.port with reply := s.port.reply.map (fun r => { r with status := .ok, words := [] }) } }

/-- A refusal with no result words (R199). -/
def State.refuse (status : Status) (s : State) : State := s.finish status []

/-- A refusal with INVALID and its result word (R199). -/
def State.invalid (n : Nat) (s : State) : State := s.finish .invalid [word n]

/-- A well-formed command transaction received whole (R198): answered BUSY while a command is in progress, otherwise taken, with
a PENDING reply, and handed to its owner. During it the port drives 0 on SPI_MISO (R196). -/
def State.takeCommand (code : Nat) (tag : Byte) (args : List Word) (owner : State → State) (s : State) : State :=
  let t := { s with port := { s.port with miso := List.replicate (4 + 4 * args.length) 0 } }
  match t.port.progress with
  | some _ => State.bump .busyAnswer { t with port := { t.port with answer := some (tag, .busy) } }
  | none =>
    owner { t with port := { t.port with
      answer := some (tag, .ok)
      progress := some (code, tag)
      reply := some { tag := tag, code := code, status := .pending, words := [] } } }

/-- The number of argument words is tested before anything else (R202). -/
def withCount (n : Nat) (args : List Word) (owner : State → State) (s : State) : State :=
  if args.length = n then owner s else s.invalid 0

/-- A command is allowed in some run states only (R202). -/
def inStates (allowed : List RunState) (owner : State → State) (s : State) : State :=
  if s.run.state ∈ allowed then owner s else s.refuse .refusedState

/-- Range tests of arguments: the first that fails names the result word (R199). -/
def withRanges (tests : List Bool) (owner : State → State) (s : State) : State :=
  match firstOffence tests with
  | some n => s.invalid n
  | none => owner s

/-! ### Samples in argument and result words -/

/-- Two samples to a word, the lower-numbered one in the upper half (R202). -/
def unpackSamples : Nat → List Word → List Half
  | 0, _ => []
  | _, [] => []
  | 1, w :: _ => [w.extractLsb' 16 16]
  | n + 2, w :: ws => w.extractLsb' 16 16 :: w.extractLsb' 0 16 :: unpackSamples n ws

/-- The result words of a READ PAGE (R202): an odd last sample stands over 16 zero bits. -/
def packSamples : List Half → List Word
  | [] => []
  | [x] => [x ++ (0 : Half)]
  | x :: y :: rest => (x ++ y) :: packSamples rest

end Sys2Proof.Machine
end

