-- ==== Sys2Proof/Machine/Tables.lean ====
section
/-! DEFINITION. What the supervisor sees: the fields of GET STATUS (R203) and the records of READ TABLE (R206). -/

namespace Sys2Proof.Machine

/-- An optional field: a presence word and the value, 0 when absent (R203). -/
def optionalWord (x : Option Word) : List Word := [flagWord x.isSome, x.getD 0]

/-- The apply of `word` to a Nat field list. -/
def words (l : List Nat) : List Word := l.map word

/-- The fields of the run controller (R70). -/
def State.runStatus (s : State) : List Word :=
  [word s.run.state.code, word s.run.assembly] ++
    optionalWord (s.run.countdown.map (fun i => word (i.epoch.toNat * 256 + i.origin))) ++
    [word ((s.run.stopField.map (fun f => f.origin * 256 + f.reason)).getD 0), flagWord s.run.record.isSome,
      flagWord s.run.trip]

/-- The fields of the drive unit (R19). -/
def State.driveStatus (s : State) : List Word :=
  [signedWord s.drive.code, signedWord s.drive.prev, signedWord s.drive.residual, word s.drive.level, word s.drive.ramp,
    flagWord s.drive.clipFlag, flagWord s.drive.slewFlag]

/-- The fields of the schedule unit (R37). -/
def State.scheduleStatus (s : State) : List Word :=
  [word s.sched.fifo.length, word s.sched.debt, flagWord s.endMarker, flagWord s.sched.loaded,
    flagWord s.sched.burst.isSome]

/-- The fields of the servo side (R53): the three lines read 1 when asserted. -/
def State.servoStatus (s : State) : List Word :=
  [signedWord (s.servo.latest.getD 0), signedWord s.servo.feedback, flagWord s.servo.stale, word s.servo.staleRun,
    flagWord s.servo.ready, flagWord s.run.trip, flagWord s.sched.mark, flagWord (!s.port.events.isEmpty)]

/-- The fields of the order unit (R98). -/
def State.orderStatus (s : State) : List Word :=
  [word s.orders.pending.length, word s.orders.highest.toNat] ++
    (match s.carriedOrder with
      | some o => [1, word o.epoch.toNat, o.effective]
      | none => [0, 0, 0])

/-- The fields of the timebase (R135). -/
def State.timeStatus (s : State) : List Word :=
  [s.time.cycle, word s.phase, word s.time.rate.val, signedWord s.time.trim, signedWord s.time.lastMean, word s.time.used]

/-- The number of entries in a peer state (R157). -/
def State.entriesIn (s : State) (p : PeerState) : Nat := (stations.filter (fun j => (s.peer j).state == p)).length

/-- The fields of the peer table (R157). -/
def State.peerStatus (s : State) : List Word :=
  flagWord s.rosterComplete ::
    words [s.entriesIn .unseen, s.entriesIn .excluded, s.entriesIn .listed, s.entriesIn .active, s.entriesIn .silent]

/-- The fields of one cable side (R194). -/
def SideRec.status (x : SideRec) : List Word := [word x.state.code, flagWord x.signal]

/-- The fields of one lane (R194). -/
def LaneRec.status (x : LaneRec) : List Word :=
  [flagWord x.closed, word x.misses, word x.roundTrip, word x.queue.length]

/-- The result words of GET STATUS (R203), group by group in the order of its table. -/
def State.statusWords (s : State) : List Word :=
  s.runStatus ++ s.driveStatus ++ s.scheduleStatus ++ s.servoStatus ++ s.orderStatus ++ s.timeStatus ++ s.peerStatus ++
    s.ring.west.status ++ s.ring.east.status ++ s.ring.a.status ++ s.ring.b.status ++ [word s.port.events.length]

/-- A last frame record (R136). -/
def LastFrame.fields (x : LastFrame) : List Word :=
  [word x.runState.toNat, x.cycle, x.replay, word x.tag.toNat, word x.rep.toNat, word x.domain.toNat, word x.stopOrigin,
    word x.stopReason, word x.highest.toNat, flagWord x.stale]

/-- Table 1 (R157). -/
def Peer.fields (p : Peer) : List Word :=
  [word p.state.code, flagWord p.expected, flagWord p.profileMatch, flagWord p.shares] ++ p.last.fields ++
    [word p.cycles, signedWord p.offset, word p.stepRun, word p.holdRun, word p.restarts]

/-- Table 2 (R151). -/
def windowFields (w : List WindowRecord) : List Word :=
  word w.length :: w.flatMap (fun x => [x.index, signedWord x.feedback, flagWord x.stale])

/-- Table 3 (R171): the lanes delivered as 0 for none, 1 for A, 2 for B, 3 for both. -/
def FilterEntry.fields (e : FilterEntry) : List Word :=
  [flagWord e.valid, word e.last.toNat, word ((if e.onA then 1 else 0) + (if e.onB then 2 else 0)), word e.staleRun,
    word e.singleRun]

/-- Table 4 (R38). -/
def Entry.fields (e : Entry) : List Word :=
  words [e.tag, e.startPage, e.length, e.repeats, e.gain, e.fadeIn, e.fadeOut, e.shape]

/-- Table 6 (R93, R94). The coding of the class is a free value (log 7, DESIGN CHOICE). -/
def FaultRecord.fields (r : FaultRecord) : List Word :=
  [word r.cause, word r.reason, word r.origin, Config.classWord r.classT, word r.concerned, word r.state.code, r.cycle,
    r.replay, word r.tag.toNat, word r.rep.toNat, flagWord r.escalated, word r.further]

/-- A table record answered: its fields, or EMPTY (R206). -/
def State.answerRecord (x : Option (List Word)) (s : State) : State :=
  match x with
  | some l => s.finish .ok l
  | none => s.finish .empty []

/-- A table indexed by station 1 to 16 (R206). -/
def State.stationTable (index : Nat) (fields : Station → List Word) (s : State) : State :=
  match stationOf? index with
  | some j => s.finish .ok (fields j)
  | none => s.invalid 2

/-- One record of a table (R206). -/
def State.readTable (table index : Nat) (s : State) : State :=
  match table with
  | 1 => s.stationTable index (fun j => (s.peer j).fields)
  | 2 => s.stationTable index (fun j => windowFields (s.peer j).window)
  | 3 => s.stationTable index (fun j => (s.filter.get j).fields)
  | 4 => if index ≤ 63 then s.answerRecord (s.sched.queue[index]?.map Entry.fields) else s.invalid 2
  | 5 => s.stationTable index
      (fun j => [signedWord (s.drive.active.get j), signedWord (s.drive.pendingBank.get j)])
  | 6 => if index = 0 then s.answerRecord (s.run.record.map FaultRecord.fields) else s.invalid 2
  | 7 =>
    if h : 1 ≤ index ∧ index ≤ 52 then s.finish .ok [word (s.port.counters.get ⟨index - 1, by omega⟩)]
    else s.invalid 2
  | _ => s.invalid 1

end Sys2Proof.Machine
end

