-- ==== Sys2Proof/Machine/Port.lean ====
section
/-! DEFINITION. The owners of the supervisor commands (R200 to R209): what each does once taken, and the READ REPLY. -/

namespace Sys2Proof.Machine

/-! ### Configuration -/

/-- The action word of a marker slot (R200). -/
def markerAction? (w : Word) : Option MarkerAction :=
  match w.toNat with
  | 1 => some .pulse
  | 2 => some .pause
  | 3 => some .note
  | _ => none

/-- A marker slot from its six words (R200). -/
def markerSlot? : List Word → Option MarkerSlot
  | [e, a, kt, tm, kr, rm] =>
    if inRange e 0 1 && inRange kt 0 65535 && inRange tm 0 65535 && inRange kr 0 65535 && inRange rm 0 65535 then
      (markerAction? a).map fun action =>
        { enable := e == 1, action := action, keyTag := kt.setWidth 16, tagMask := tm.setWidth 16,
          keyRepeat := kr.setWidth 16, repeatMask := rm.setWidth 16 }
    else none
  | _ => none

/-- An unsigned item value in its range (R200). -/
def unsignedItem (lo hi : Nat) (w : Word) : Option Nat := if inRange w lo hi then some w.toNat else none

/-- A signed item value in its range (R200). -/
def signedItem (lo hi : Int) (w : Word) : Option Int := if inSignedRange w lo hi then some w.toInt else none

/-- An item of one value written (R200): none for an item that is not one of these or a value outside its range. -/
def Items.writeValue (c : Items) (item : Nat) (w : Word) : Option Items :=
  match item with
  | 1 => (unsignedItem 0 16 w).map fun v => { c with station := v }
  | 2 => (unsignedItem 0 65535 w).map fun v => { c with roster := BitVec.ofNat 16 v }
  | 3 => (unsignedItem 0 255 w).map fun v => { c with domain := BitVec.ofNat 8 v }
  | 4 => if h : w.toNat < 3 then some { c with rate := ⟨w.toNat, h⟩ } else none
  | 5 => (unsignedItem 4096 61440 w).map fun v => { c with outputPhase := v }
  | 6 => (unsignedItem 0 3 w).map fun v => { c with lag := v }
  | 7 => (unsignedItem 0 4095 w).map fun v => { c with laneDelayA := v }
  | 8 => (unsignedItem 0 4095 w).map fun v => { c with laneDelayB := v }
  | 9 => (signedItem (-32768) 32767 w).map fun v => { c with cmdMin := v }
  | 10 => (signedItem (-32768) 32767 w).map fun v => { c with cmdMax := v }
  | 11 => (signedItem (-8388608) 8388607 w).map fun v => { c with bias := v }
  | 12 => (signedItem 1 8388607 w).map fun v => { c with slewMax := v }
  | 13 => (signedItem (-8388608) 8388607 w).map fun v => { c with fbMin := v }
  | 14 => (signedItem (-8388608) 8388607 w).map fun v => { c with fbMax := v }
  | 15 => (unsignedItem 0 1 w).map fun v => { c with carry := v == 1 }
  | 16 => (unsignedItem 1 32768 w).map fun v => { c with stopStep := v }
  | 17 => (unsignedItem 1 15 w).map fun v => { c with missLimit := v }
  | 18 => (unsignedItem 0 15 w).map fun v => { c with holdLimit := v }
  | 19 => (unsignedItem 256 32767 w).map fun v => { c with stepLimit := v }
  | 20 => (unsignedItem 1 15 w).map fun v => { c with staleLimit := v }
  | 21 => (unsignedItem 0 127 w).map fun v => { c with trimMax := v }
  | 22 => (unsignedItem 16 4096 w).map fun v => { c with minLead := v }
  | 23 => (unsignedItem 1 255 w).map fun v => { c with pulseCycles := v }
  | 24 => (unsignedItem 1 65535 w).map fun v => { c with pauseLength := v }
  | _ => none

/-- A marker slot item written (R200). -/
def Items.writeSlot (c : Items) (item : Nat) (m : MarkerSlot) : Option Items :=
  match item with
  | 25 => some { c with slot0 := m }
  | 26 => some { c with slot1 := m }
  | 27 => some { c with slot2 := m }
  | 28 => some { c with slot3 := m }
  | _ => none

/-- An item with its value words written (R200): none for a wrong item, number of values, or value. -/
def Items.write (c : Items) (item : Nat) (values : List Word) : Option Items :=
  match values with
  | [w] => c.writeValue item w
  | vs => (markerSlot? vs).bind (c.writeSlot item)

/-- WRITE CONFIG (R200). -/
def State.writeConfig (args : List Word) (s : State) : State :=
  if args.length ≠ 2 ∧ args.length ≠ 7 then s.invalid 0
  else if s.run.state ≠ .offline then s.refuse .refusedState
  else match s.items.write (argAt args 0).toNat args.tail with
    | some c => State.finish .ok [] { s with port := { s.port with items := c } }
    | none => s.finish .invalid [argAt args 0]

/-- The first check of GO ONLINE that fails, by its item (R201). -/
def Items.fault? (c : Items) : Option Nat :=
  if c.station = 0 then some 1
  else if c.roster.getLsbD (c.station - 1) then some 2
  else if c.domain = 0 then some 3
  else if c.cmdMax ≤ c.cmdMin then some 10
  else if c.fbMax ≤ c.fbMin then some 14
  else none

/-- The own station's coefficients set to 0 (R26). -/
def State.clearOwnCoefficients (s : State) : State :=
  match stationOf? s.ownNumber with
  | none => s
  | some j =>
    { s with drive := { s.drive with active := put s.drive.active j 0, pendingBank := put s.drive.pendingBank j 0 } }

/-- The timebase takes the configured rate, with T at 0 (R122). -/
def State.takeRate (s : State) : State := { s with time := { s.time with rate := s.items.rate, trim := 0 } }

/-- The node goes online (R72): run state, first presentation (R4), own coefficients (R26), rate (R122), roster (R137) and
shape load (R29). -/
def State.goOnline (s : State) : State :=
  let t := s.changeState .assembly
  let t := State.clearOwnCoefficients { t with drive := t.drive.goOnline t.items }
  t.takeRate.takeRoster.requestBurst (.shape 0)

/-- GO ONLINE (R201). -/
def State.tryOnline (s : State) : State :=
  match s.items.fault? with
  | some n => s.invalid n
  | none => s.goOnline.finish .ok []

/-! ### Store transfers -/

/-- The range tests of a transfer (R31): page, offset, and the count with its end in the page. -/
def transferTests (args : List Word) : List Bool :=
  [inRange (argAt args 0) 0 8191, inRange (argAt args 1) 0 4095,
    inRange (argAt args 2) 1 256 && decide ((argAt args 1).toNat + (argAt args 2).toNat ≤ 4096)]

/-- The first store word of a transfer (R28). -/
def transferStart (args : List Word) : Nat := (argAt args 0).toNat * 4096 + (argAt args 1).toNat

/-- WRITE PAGE (R31, R202). -/
def State.writePage (args : List Word) (s : State) : State :=
  if args.length < 3 ∨ args.length ≠ 3 + ((argAt args 2).toNat + 1) / 2 then s.invalid 0
  else withRanges (transferTests args)
    (State.requestChunk (.write (transferStart args) (unpackSamples (argAt args 2).toNat (args.drop 3)))) s

/-- READ PAGE (R31). -/
def State.readPage (args : List Word) : State → State :=
  withRanges (transferTests args) (State.requestChunk (.read (transferStart args) (argAt args 2).toNat))

/-! ### Schedule -/

/-- The range tests of the eight fields, then of the span and of the fades (R38, R39), with the position each names. -/
def segmentOffence (args : List Word) : Option Nat :=
  let v := fun k => (argAt args k).toNat
  match firstOffence [inRange (argAt args 0) 1 65535, inRange (argAt args 1) 0 8190, inRange (argAt args 2) 1 16777216,
      inRange (argAt args 3) 1 65535, inRange (argAt args 4) 0 65535, inRange (argAt args 5) 0 4095,
      inRange (argAt args 6) 0 4095, inRange (argAt args 7) 0 15] with
  | some n => some n
  | none =>
    if 8190 < v 1 + (v 2 + 4095) / 4096 - 1 then some 3
    else if v 2 < v 5 + v 6 then some 7
    else none

/-- The entry of an APPEND SEGMENT (R39). -/
def segmentOf (args : List Word) : Entry :=
  let v := fun k => (argAt args k).toNat
  { tag := v 0, startPage := v 1, length := v 2, repeats := v 3, gain := v 4, fadeIn := v 5, fadeOut := v 6, shape := v 7 }

/-- APPEND SEGMENT (R39). -/
def State.appendSegment (args : List Word) (s : State) : State :=
  if s.run.state = .offline then s.refuse .refusedState
  else match segmentOffence args with
    | some n => s.invalid n
    | none =>
      if 64 ≤ s.sched.queue.length then s.refuse .full
      else ((s.append (segmentOf args)).readyTest).finish .ok []

/-- DISCARD SCHEDULE (R40). -/
def State.discardSchedule (s : State) : State := (s.discardQueue.readyTest).finish .ok []

/-- SEEK REPEAT (R41). -/
def State.seekRepeat (args : List Word) (s : State) : State :=
  match s.sched.queue, s.sched.head with
  | e :: _, some p =>
    if inRange (argAt args 0) 1 e.repeats then
      ((State.flush { s with sched := s.sched.position e (argAt args 0).toNat p.start }).readyTest).finish .ok []
    else s.invalid 1
  | _, _ => s.refuse .refusedCondition

/-! ### Coupling -/

/-- WRITE COUPLING (R26, R202). -/
def State.writeCoupling (args : List Word) (s : State) : State :=
  match stationOf? (argAt args 0).toNat with
  | none => s.invalid 1
  | some j =>
    if stationNumber j = s.ownNumber then s.invalid 1
    else if inSignedRange (argAt args 1) (-32768) 32767 then
      State.finish .ok [] { s with drive := { s.drive with
        pendingBank := put s.drive.pendingBank j (argAt args 1).toInt } }
    else s.invalid 2

/-- APPLY COUPLING (R27, R202). -/
def State.applyCoupling (args : List Word) (s : State) : State :=
  match (argAt args 0).toNat with
  | 1 => State.finish .ok [] { s with drive := { s.drive with apply := .now } }
  | 2 => State.finish .ok [] { s with drive := { s.drive with apply := .atRepeat } }
  | _ => s.invalid 1

/-! ### Orders and CLEAR -/

/-- The supervisor's origination of an order (R101, R102): the BUSY test, then the order with its epoch and effective cycle as
result words. -/
def State.commandOrder (k : OrderKind) (a b : Nat) (s : State) : State :=
  if s.mayOriginate then
    let o := s.newOrder k a b
    (s.originate k a b).finish .ok [word o.epoch.toNat, o.effective]
  else s.refuse .busy

/-- The range tests of order arguments (R202). -/
def orderTests (args : List Word) : List Bool := args.map (fun w => inRange w 0 65535)

/-- The stop field cleared and the record emptied (R95, R96). -/
def State.clearEpisode (s : State) : State := { s with run := { s.run with stopField := none, record := none } }

/-- The node leaves STOPPED or TRIPPED (R95, R96): to STANDBY with a complete roster, otherwise to ASSEMBLY. -/
def State.leaveStop (s : State) : State := if s.rosterComplete then s.enterStandby else s.changeState .assembly

/-- CLEAR taken in STOPPED (R95). -/
def State.clearStopped (s : State) : State := (s.clearEpisode.leaveStop).finish .ok []

/-- The CLEAR conditions (R61): servo-ready asserted, the latest sample within its range; without one it is tested as 0. -/
def State.clearConditions (s : State) : Bool :=
  s.servo.ready && inFeedbackRange s.items (s.servo.latest.getD 0)

/-- CLEAR taken in TRIPPED (R96): the reader fetches again once its hold is cleared (R34). -/
def State.clearTripped (s : State) : State :=
  if s.clearConditions then (((s.release.setHold false).fetch.clearEpisode).leaveStop).finish .ok []
  else s.refuse .refusedCondition

/-- CLEAR (R95, R96). -/
def State.clearCommand (s : State) : State :=
  match s.run.state with
  | .stopped => s.clearStopped
  | .tripped => s.clearTripped
  | _ => s.refuse .refusedState

/-! ### Events, counters and reset -/

/-- READ EVENT (R205). -/
def State.readEvent (s : State) : State :=
  match s.port.events with
  | [] => s.finish .empty []
  | e :: rest =>
    State.finish .ok [word e.kind.code, e.cycle, e.detail1, e.detail2, word rest.length]
      { s with port := { s.port with events := rest } }

/-- CLEAR COUNTERS (R208). -/
def State.clearCounters (s : State) : State :=
  State.finish .ok [] { s with port := { s.port with counters := Vector.replicate 52 0 } }

/-- RESET NODE (R209): the reply is OK, the reset is pending for 100 µs, 5000 reference edges (log 10, DEDUCED), and the command stays
in progress. -/
def State.resetNode (s : State) : State :=
  State.replyOk { s with port := { s.port with resetPending := some (.waiting 5000) } }

/-! ### READ REPLY and malformed transactions -/

/-- The bytes of a READ REPLY from offset 1 on, with the check (R196). -/
def State.replyBytes (s : State) : List Byte :=
  let answer := s.port.answer.getD (0, .empty)
  let front :=
    match s.port.reply with
    | some r =>
      [answer.1, BitVec.ofNat 8 answer.2.code, r.tag, BitVec.ofNat 8 r.code, BitVec.ofNat 8 r.status.code,
        BitVec.ofNat 8 r.words.length] ++ r.words.flatMap wordBytes
    | none =>
      [answer.1, BitVec.ofNat 8 answer.2.code, Config.noReplyTag, 0, BitVec.ofNat 8 Status.empty.code, 0]
  front ++ [checkByte front]

/-- A READ REPLY of `clocked` bytes after byte 0 (R199): the record, then zeros. A RESET NODE pending within its 100 µs takes
effect at its end (R209; log 35, DEDUCED). What stands on SPI_MISO during byte 0 is left out (log 26, DEDUCED). -/
def State.readReply (clocked : Nat) (s : State) : State :=
  { s with port := { s.port with
      miso := s.replyBytes.take clocked ++ List.replicate (clocked - s.replyBytes.length) 0
      resetPending := s.port.resetPending.map (fun _ => .replyBegun) } }

/-- A malformed transaction (R197); one under way when reset ended and one of good form are no event of this kind. -/
def State.malformedCommand (straddles : Bool) (bytes : List Byte) (s : State) : State :=
  if !straddles && malformed bytes then
    State.bump .transactionError { s with port := { s.port with
      answer := some (bytes.getD 1 0, .invalid)
      miso := List.replicate bytes.length 0 } }
  else s

end Sys2Proof.Machine
end

