-- ==== Sys2Proof/Machine/PartCommands.lean ====
section
/-! DEFINITION. The commands of the part itself: the two kinds of reset (R28, R68, R209) and the loss of the supply (R65). -/

namespace Sys2Proof.Machine

/-- A step of the running part. In reset and without supply no block acts, so nothing changes (R65, R68; log 33, DEDUCED). The scratch is at rest
before the step and after it (log 4, DESIGN CHOICE). -/
def State.whileRunning (f : State → State) (s : State) : State := if s.running then (f s.settle).settle else s

/-- A named step that comes about inside another one (log 2, DESIGN CHOICE): the other step, when it brings the named thing about, and no effect
when it does not. -/
def State.bringing (h : Happening) (f : State → State) (s : State) : State :=
  if h ∈ (f s).scratch.brought then f s else s

/-- The words of a write chunk cut off by a power-on reset, from word `k` of the chunk on: each old or new (R28). -/
def Words.writeCut (cut : Nat) : Words → Nat → Nat → List Half → Words
  | m, _, _, [] => m
  | m, a, k, v :: vs => Words.writeCut cut (if Config.cutWordIsNew cut k then m.write a v else m) (a + 1) (k + 1) vs

/-- The write chunk under way at the drive store, if there is one: its first word and its words (R30, R31). -/
def State.chunkUnderWay (s : State) : Option (Nat × List Half) :=
  match s.arb.serving, s.arb.chunk with
  | some .supervisor, some (.write first ws) => some (first, ws)
  | _, _ => none

/-- The drive store after a power-on reset (R28): as it was, but for a chunk that it cuts off. -/
def State.cutStore (s : State) : State :=
  match s.chunkUnderWay with
  | some (first, ws) => { s with store := s.store.writeCut s.cuts first 0 ws, cuts := s.cuts + 1 }
  | none => s

/-- Every block takes its values of reset; the drive store keeps its contents (R209), and the queue of commands, which is not the
part's, stands. -/
def State.resetBlocks (cond : Condition) (s : State) : State :=
  { State.reset with cond := cond, store := s.store, cuts := s.cuts, pending := s.pending }

/-- A reset brought about by RESET NODE (R209): it lasts 4 µs, 200 reference edges (log 10, DEDUCED). -/
def State.nodeReset (s : State) : State := s.resetBlocks (.nodeReset 200)

/-- A reset by RESET NODE ends (R209): the part leaves reset in OFFLINE. -/
def State.leaveReset (s : State) : State := { s with cond := .running }

/-- POWER_ON_RESET (R68): RESET_N falls, and the part is in reset. -/
def execPowerOnReset (s : State) : Host.Outcome State Fault Refusal := .next (s.cutStore.resetBlocks .inReset)

/-- RESET_RELEASE (R68): RESET_N rises. Outside that reset there is no such rise. -/
def execResetRelease (s : State) : Host.Outcome State Fault Refusal :=
  .next (if s.cond = .inReset then s.leaveReset else s)

/-- RESET_NODE_TAKES_EFFECT (R209): the pending reset takes effect; without one, no effect (log 2, DESIGN CHOICE). -/
def execResetNodeTakesEffect (s : State) : Host.Outcome State Fault Refusal :=
  .next (if s.running && s.port.resetPending.isSome then s.nodeReset else s)

/-- The part is in the reset of a RESET NODE. -/
def State.inNodeReset (s : State) : Bool :=
  match s.cond with
  | .nodeReset _ => true
  | _ => false

/-- RESET_NODE_END (R209): the reset of a RESET NODE ends after its 4 µs. -/
def execResetNodeEnd (s : State) : Host.Outcome State Fault Refusal :=
  .next (if s.inNodeReset then s.leaveReset else s)

/-- POWER_LOSS (R65): the part drives nothing. Nothing else is stated of it; a power-on reset follows (log 18, DESIGN CHOICE). -/
def execPowerLoss (s : State) : Host.Outcome State Fault Refusal := .next { s with cond := .unpowered }

end Sys2Proof.Machine
end

