-- ==== Sys2Proof/Machine/TimeCommands.lean ====
section
/-! DEFINITION. The commands of time and of the servo side: the cycle boundary with the named steps that come about inside it, the
output instant with PEER_LATE, the arrival stamp, the feedback word, servo-ready, and one reference clock edge. -/

namespace Sys2Proof.Machine

/-- CYCLE_BOUNDARY (R121); an output instant still to come in the cycle is taken on the way to it (R123). -/
def execCycleBoundary (first : List BoundaryAction) (s : State) : Host.Outcome State Fault Refusal :=
  .next (s.whileRunning (State.endCycle first))

/-- OUTPUT_INSTANT (R123). -/
def execOutputInstant (first : List InstantReport) (s : State) : Host.Outcome State Fault Refusal :=
  .next (s.whileRunning (State.instant first))

/-- FEEDBACK_WORD (R54); one whose FB_FRM rose before the end of reset is discarded without being counted (R68;
log 28, DESIGN CHOICE). -/
def execFeedbackWord (straddles : Bool) (bits : List Bool) (s : State) : Host.Outcome State Fault Refusal :=
  .next (if straddles then s else s.whileRunning (State.receiveWord bits))

/-- SERVO_READY (R60): SRDY has shown the level for 64 edges (log 30, DESIGN CHOICE). -/
def execServoReady (level : Bool) (s : State) : Host.Outcome State Fault Refusal :=
  .next (s.whileRunning (State.setReady level))

/-- FEEDBACK_LOSS (R57): the boundary at which the request is sent. -/
def execFeedbackLoss (first : List BoundaryAction) (s : State) : Host.Outcome State Fault Refusal :=
  .next (s.whileRunning (State.bringing .feedbackLoss (State.endCycle first)))

/-- RAMP_END_REPORT (R25): the boundary at which R is reported at 0. -/
def execRampEndReport (first : List BoundaryAction) (s : State) : Host.Outcome State Fault Refusal :=
  .next (s.whileRunning (State.bringing .rampEnd (State.endCycle first)))

/-- ASSEMBLY_COMPLETE (R73): the boundary at which the assembly count reaches 16. -/
def execAssemblyComplete (first : List BoundaryAction) (s : State) : Host.Outcome State Fault Refusal :=
  .next (s.whileRunning (State.bringing .assemblyComplete (State.endCycle first)))

/-- PEER_SILENT (R143): the boundary at which station j becomes SILENT. -/
def execPeerSilent (first : List BoundaryAction) (j : Station) (s : State) : Host.Outcome State Fault Refusal :=
  .next (s.whileRunning (State.bringing (.peerSilent j) (State.endCycle first)))

/-- RING_OPEN (R182): the boundary at which a lane opens. -/
def execRingOpen (first : List BoundaryAction) (lane : Lane) (s : State) : Host.Outcome State Fault Refusal :=
  .next (s.whileRunning (State.bringing (.ringOpen lane) (State.endCycle first)))

/-- MARKER_PULSE_END (R51): the boundary at which the marker line is deasserted. -/
def execMarkerPulseEnd (first : List BoundaryAction) (s : State) : Host.Outcome State Fault Refusal :=
  .next (s.whileRunning (State.bringing .pulseEnd (State.endCycle first)))

/-- PEER_LATE (R12): the output instant at which the request for station j is sent. -/
def execPeerLate (first : List InstantReport) (j : Station) (s : State) : Host.Outcome State Fault Refusal :=
  .next (s.whileRunning (State.bringing (.peerLate j) (State.instant first)))

/-- A frame begins to arrive on a lane, `edges` reference edges on (R124): its stamp is kept. -/
def State.stampArrival (lane : Lane) (edges : Nat) (s : State) : State :=
  let t := s.elapseWithin edges
  t.onLane lane (fun x => { x with receiving := some t.stampNow })

/-- ARRIVAL_STAMP (R124). -/
def execArrivalStamp (lane : Lane) (edges : Nat) (s : State) : Host.Outcome State Fault Refusal :=
  .next (s.whileRunning (State.stampArrival lane edges))

/-! ### One reference clock edge (log 9, DESIGN CHOICE) -/

/-- The down hold of a side runs out (R176). -/
def State.expireHold (d : Side) (s : State) : State :=
  if (s.side d).state = .down ∧ 0 < (s.side d).hold then
    State.tryTraining d (s.onSide d (fun x => { x with hold := 0 }))
  else s

/-- The phase has reached OutputPhase in a cycle whose mark is clear (R123). -/
def State.instantDue (s : State) : Bool := !s.time.mark && decide (s.items.outputPhase ≤ s.phase)

/-- An edge within or at the end of a cycle: a boundary when it carries, otherwise an output instant when one is due. -/
def State.advanceClock (s : State) : State :=
  if s.edgesToBoundary = 1 then s.boundary []
  else
    let t := s.elapse 1
    if t.instantDue then t.takeInstant [] else t

/-- The down hold of a side was at its last edge in `before`: it runs out now. -/
def State.expireIfLast (before : State) (d : Side) (s : State) : State :=
  if (before.side d).hold = 1 then s.expireHold d else s

/-- A pending RESET NODE takes effect at this edge (R209): its 100 µs end, or its READ REPLY has ended. -/
def State.resetDue (s : State) : Bool :=
  match s.port.resetPending with
  | some (.waiting e) => decide (e ≤ 1)
  | some .replyBegun => true
  | none => false

/-- One edge of a running part. Where a boundary or an output instant falls on the edge at which a down hold ends, the boundary or
the instant is taken first, then the West hold, then the East hold; the spec gives no order (log 9, DESIGN CHOICE). -/
def State.runEdge (s : State) : State :=
  if s.resetDue then s.nodeReset
  else State.expireIfLast s .east (State.expireIfLast s .west s.advanceClock)

/-- One reference clock edge, which is what a step on an empty queue is (log 9, DESIGN CHOICE). -/
def State.clockEdge (s : State) : State :=
  match s.cond with
  | .unpowered => s
  | .inReset => s
  | .nodeReset e => if e ≤ 1 then s.leaveReset else { s with cond := .nodeReset (e - 1) }
  | .running => s.whileRunning State.runEdge

end Sys2Proof.Machine
end

