-- ==== Sys2Proof/Machine/RingCommands.lean ====
section
/-! DEFINITION. The commands of the rig ring and of frame acceptance (R159 to R187). -/

namespace Sys2Proof.Machine

/-- Signal present is set on a side (R175), which may let training begin (R176). -/
def State.gainSignal (d : Side) (s : State) : State :=
  if (s.side d).signal then s else State.tryTraining d (s.onSide d (fun x => { x with signal := true }))

/-- SIGNAL_PRESENT (R175). -/
def execSignalPresent (d : Side) (s : State) : Host.Outcome State Fault Refusal :=
  .next (s.whileRunning (State.gainSignal d))

/-- Signal present is cleared on a side (R175): the frame arriving there is lost, and a side in TRAINING or UP goes DOWN
(R177, R178). -/
def State.loseSignal (d : Side) (s : State) : State :=
  if (s.side d).signal then
    let t := (s.onSide d (fun x => { x with signal := false })).endReception d.receives
    if (t.side d).state = .down then t else t.sideDown d 3
  else s

/-- SIGNAL_LOST (R175). -/
def execSignalLost (d : Side) (s : State) : Host.Outcome State Fault Refusal :=
  .next (s.whileRunning (State.loseSignal d))

/-- DOWN_HOLD_EXPIRY (R176). -/
def execDownHoldExpiry (d : Side) (s : State) : Host.Outcome State Fault Refusal :=
  .next (s.whileRunning (State.expireHold d))

/-- LANE_WORD (R175 to R178). -/
def execLaneWord (d : Side) (profile flags check : Byte) (s : State) : Host.Outcome State Fault Refusal :=
  .next (s.whileRunning (State.takeLaneWord d profile flags check))

/-- The next clean lane word brings the valid-word count to 8 (R177). -/
def State.lastWordDue (s : State) (d : Side) : Bool := (s.side d).state == .training && decide (8 ≤ (s.side d).words + 1)

/-- SIDE_TRAINED (R177): the clean lane word that brings the valid-word count to 8 (log 2, DESIGN CHOICE). -/
def execSideTrained (d : Side) (s : State) : Host.Outcome State Fault Refusal :=
  .next (s.whileRunning (fun t => if t.lastWordDue d then t.cleanWord d else t))

/-- FRAME_ARRIVAL (R180). -/
def execFrameArrival (lane : Lane) (closed : Bool) (bytes : List Byte) (s : State) : Host.Outcome State Fault Refusal :=
  .next (s.whileRunning (State.takeArrival lane closed bytes))

/-- The next bad frame brings the failure count to 8 (R178, R180). -/
def State.lastFailureDue (s : State) (d : Side) : Bool := (s.side d).state == .up && decide (8 ≤ (s.side d).fails + 1)

/-- The bad frame that brings the failure count to 8; none where it is not the 8th (R178). -/
def State.failCheck (d : Side) (s : State) : State :=
  if s.lastFailureDue d then (s.endReception d.receives).badFrame d else s

/-- FRAME_CHECK_DOWN (R178): the bad frame that brings the failure count to 8 (log 2, DESIGN CHOICE). -/
def execFrameCheckDown (d : Side) (s : State) : Host.Outcome State Fault Refusal :=
  .next (s.whileRunning (State.failCheck d))

/-- TRANSMIT_START (R187): a unit boundary of a lane's transmitter (log 32, DESIGN CHOICE), `edges` reference edges on. -/
def execTransmitStart (lane : Lane) (edges : Nat) (s : State) : Host.Outcome State Fault Refusal :=
  .next (s.whileRunning (fun t => (t.elapseWithin edges).startTransmission lane))

/-- TRANSMISSION_END (R187): the frame in transmission has been sent to its end. -/
def execTransmissionEnd (lane : Lane) (s : State) : Host.Outcome State Fault Refusal :=
  .next (s.whileRunning (fun t => t.onLane lane (fun x => { x with sending := none })))

/-- DELIVERY_COPY_TAKEN (R160). -/
def execDeliveryCopyTaken (n : Nat) (s : State) : Host.Outcome State Fault Refusal :=
  .next (s.whileRunning (State.takeWaiting n))

/-- RESYNCHRONISATION (R166): the taking of a copy that resynchronises its entry. -/
def execResynchronisation (n : Nat) (s : State) : Host.Outcome State Fault Refusal :=
  .next (s.whileRunning (State.bringing .resynchronisation (State.takeWaiting n)))

/-- PATH_DEGRADED (R167): the taking of a copy that posts it. -/
def execPathDegraded (n : Nat) (s : State) : Host.Outcome State Fault Refusal :=
  .next (s.whileRunning (State.bringing .pathDegraded (State.takeWaiting n)))

/-- STEP_LOSS (R127): the taking of a copy that reports it. -/
def execStepLoss (n : Nat) (s : State) : Host.Outcome State Fault Refusal :=
  .next (s.whileRunning (State.bringing .stepLoss (State.takeWaiting n)))

/-! ### Events that fall together with a STOP -/

/-- An event that falls together with a STOP, taken ahead of its request (R88, R89). -/
def State.happens (s : State) : Together → State
  | .boundary first => s.endCycle first
  | .instant first => s.instant first
  | .copy n => s.takeWaiting n
  | .servoReady level => s.setReady level
  | .signalLost d => s.loseSignal d
  | .frameCheckDown d => s.failCheck d

end Sys2Proof.Machine
end

