-- ==== Sys2Proof/Machine/StoreCommands.lean ====
section
/-! DEFINITION. The completions at the drive store (R29 to R36). -/

namespace Sys2Proof.Machine

/-- A burst has completed: the reader tests its conditions (R34, R36), the port is granted anew (R30) and the READY conditions are
tested (R74). -/
def State.afterBurst (s : State) : State := s.fetch.grant.readyTest

/-- The completion of a sample burst of `length` words from `first` on (R35); one with its void flag set brings no samples
(R36). -/
def State.completeSamples (first length : Nat) (void : Bool) (s : State) : State :=
  let t := { s with sched := { s.sched with burst := none } }
  State.afterBurst (if void then t else t.takeSamples (s.store.readAll first length))

/-- The completion of the burst outstanding, when it is a sample burst that the port serves. -/
def State.sampleCompletion (s : State) : State :=
  match s.arb.serving, s.sched.burst with
  | some .prefetch, some (.sample first length void) => s.completeSamples first length void
  | _, _ => s

/-- SAMPLE_BURST_COMPLETION (R35). -/
def execSampleBurstCompletion (s : State) : Host.Outcome State Fault Refusal :=
  .next (s.whileRunning State.sampleCompletion)

/-- The store word at which fade shape `k` begins, in page 8191 (R29). -/
def shapeStart (k : Nat) : Nat := 8191 * 4096 + k * 256

/-- The completion of the shape-load burst of shape `k` (R29): the copy takes its words and the count rises; the next burst is
requested, and after the last the load marker stands at loaded. -/
def State.completeShape (k : Nat) (s : State) : State :=
  let t := { s with sched := { s.sched with
    burst := none
    shapes := s.sched.shapes.writeAll (k * 256) (s.store.readAll (shapeStart k) 256)
    shapeCount := s.sched.shapeCount + 1
    loaded := decide (15 ≤ k) } }
  State.afterBurst (if k < 15 then t.requestBurst (.shape (k + 1)) else t)

/-- The completion of the burst outstanding, when it is a shape-load burst that the port serves. -/
def State.shapeCompletion (s : State) : State :=
  match s.arb.serving, s.sched.burst with
  | some .prefetch, some (.shape k) => s.completeShape k
  | _, _ => s

/-- SHAPE_LOAD_BURST_COMPLETION (R29). -/
def execShapeLoadBurstCompletion (s : State) : Host.Outcome State Fault Refusal :=
  .next (s.whileRunning State.shapeCompletion)

/-- A chunk has completed: its command is finished with OK (R31), and the port is granted anew (R30). -/
def State.finishChunk (results : List Word) (s : State) : State :=
  State.grant (State.finish .ok results { s with arb := { s.arb with chunk := none } })

/-- The words of a write chunk enter the store, and the shape copy too when they lie in page 8191 and the node is online
(R29, R31). -/
def State.storeChunk (first : Nat) (ws : List Half) (s : State) : State :=
  { s with
    store := s.store.writeAll first ws
    sched := { s.sched with
      shapes := if first / 4096 = 8191 ∧ s.online = true then s.sched.shapes.writeAll (first - 8191 * 4096) ws
        else s.sched.shapes } }

/-- The completion of the chunk that the port serves, when it writes. -/
def State.writeCompletion (s : State) : State :=
  match s.chunkUnderWay with
  | some (first, ws) => (s.storeChunk first ws).finishChunk []
  | none => s

/-- WRITE_CHUNK_COMPLETION (R31). -/
def execWriteChunkCompletion (s : State) : Host.Outcome State Fault Refusal :=
  .next (s.whileRunning State.writeCompletion)

/-- The completion of the chunk that the port serves, when it reads. -/
def State.readCompletion (s : State) : State :=
  match s.arb.serving, s.arb.chunk with
  | some .supervisor, some (.read first count) => s.finishChunk (packSamples (s.store.readAll first count))
  | _, _ => s

/-- READ_CHUNK_COMPLETION (R31). -/
def execReadChunkCompletion (s : State) : Host.Outcome State Fault Refusal :=
  .next (s.whileRunning State.readCompletion)

end Sys2Proof.Machine
end

