-- ==== Sys2Proof/Machine/PortCommands.lean ====
section
/-! DEFINITION. The transactions of the supervisor port (R196 to R209): each command with its number of arguments and its run
states (R202), handed to its owner. -/

namespace Sys2Proof.Machine

/-- A command of the running part, taken or turned away (R198). -/
def State.command (code : Nat) (tag : Byte) (args : List Word) (owner : State → State) (s : State) : State :=
  s.whileRunning (State.takeCommand code tag args owner)

/-- MALFORMED_TRANSACTION (R197). -/
def execMalformedTransaction (straddles : Bool) (bytes : List Byte) (s : State) : Host.Outcome State Fault Refusal :=
  .next (s.whileRunning (State.malformedCommand straddles bytes))

/-- READ_REPLY (R199). -/
def execReadReply (clocked : Nat) (s : State) : Host.Outcome State Fault Refusal :=
  .next (s.whileRunning (State.readReply clocked))

/-- GET_STATUS (R203). -/
def execGetStatus (tag : Byte) (args : List Word) (s : State) : Host.Outcome State Fault Refusal :=
  .next (s.command 1 tag args (withCount 0 args (fun t => t.finish .ok t.statusWords)))

/-- WRITE_CONFIG (R200). -/
def execWriteConfig (tag : Byte) (args : List Word) (s : State) : Host.Outcome State Fault Refusal :=
  .next (s.command 2 tag args (State.writeConfig args))

/-- GO_ONLINE (R201, R72). -/
def execGoOnline (tag : Byte) (args : List Word) (s : State) : Host.Outcome State Fault Refusal :=
  .next (s.command 3 tag args (withCount 0 args (inStates [.offline] State.tryOnline)))

/-- WRITE_PAGE (R31). -/
def execWritePage (tag : Byte) (args : List Word) (s : State) : Host.Outcome State Fault Refusal :=
  .next (s.command 4 tag args (State.writePage args))

/-- READ_PAGE (R31). -/
def execReadPage (tag : Byte) (args : List Word) (s : State) : Host.Outcome State Fault Refusal :=
  .next (s.command 5 tag args (withCount 3 args (State.readPage args)))

/-- APPEND_SEGMENT (R39). -/
def execAppendSegment (tag : Byte) (args : List Word) (s : State) : Host.Outcome State Fault Refusal :=
  .next (s.command 6 tag args (withCount 8 args (State.appendSegment args)))

/-- The states in which DISCARD SCHEDULE and SEEK REPEAT are taken (R40, R41). -/
def scheduleStates : List RunState := [.standby, .ready, .stopped]

/-- DISCARD_SCHEDULE (R40). -/
def execDiscardSchedule (tag : Byte) (args : List Word) (s : State) : Host.Outcome State Fault Refusal :=
  .next (s.command 7 tag args (withCount 0 args (inStates scheduleStates State.discardSchedule)))

/-- SEEK_REPEAT (R41). -/
def execSeekRepeat (tag : Byte) (args : List Word) (s : State) : Host.Outcome State Fault Refusal :=
  .next (s.command 8 tag args (withCount 1 args (inStates scheduleStates (State.seekRepeat args))))

/-- WRITE_COUPLING (R26). -/
def execWriteCoupling (tag : Byte) (args : List Word) (s : State) : Host.Outcome State Fault Refusal :=
  .next (s.command 9 tag args (withCount 2 args (State.writeCoupling args)))

/-- APPLY_COUPLING (R27). -/
def execApplyCoupling (tag : Byte) (args : List Word) (s : State) : Host.Outcome State Fault Refusal :=
  .next (s.command 10 tag args (withCount 1 args (State.applyCoupling args)))

/-- An origination commanded in its run states, its arguments in range (R101, R102, R202). -/
def orderOwner (n : Nat) (args : List Word) (allowed : List RunState) (k : OrderKind) (b : Nat) : State → State :=
  withCount n args (inStates allowed (withRanges (orderTests args) (State.commandOrder k (argAt args 0).toNat b)))

/-- START (R101). -/
def execStart (tag : Byte) (args : List Word) (s : State) : Host.Outcome State Fault Refusal :=
  .next (s.command 11 tag args (orderOwner 2 args [.ready] .start (argAt args 1).toNat))

/-- PAUSE (R101). -/
def execPause (tag : Byte) (args : List Word) (s : State) : Host.Outcome State Fault Refusal :=
  .next (s.command 12 tag args (orderOwner 1 args [.run] .pause 0))

/-- RESUME (R101). -/
def execResume (tag : Byte) (args : List Word) (s : State) : Host.Outcome State Fault Refusal :=
  .next (s.command 13 tag args (orderOwner 1 args [.paused] .resume 0))

/-- SET_LEVEL (R101). -/
def execSetLevel (tag : Byte) (args : List Word) (s : State) : Host.Outcome State Fault Refusal :=
  .next (s.command 14 tag args (orderOwner 2 args [.run, .pausing, .paused] .level (argAt args 1).toNat))

/-- STOP taken (R89): its request is handed on, after that of the event that fell together with it, and the reply is OK. The event is
taken whole between the taking of the command and its request (log 39, DESIGN CHOICE). -/
def State.stopCommand (ahead : Option Together) (s : State) : State :=
  let t := match ahead with
    | none => s
    | some e => s.happens e
  (t.requestLocal .operator t.ownNumber).finish .ok []

/-- STOP (R89). One that is turned away makes no request, and then the event that `ahead` names is not taken with it (log 39,
DESIGN CHOICE). -/
def execStop (tag : Byte) (arrival : StopArrival) (s : State) : Host.Outcome State Fault Refusal :=
  .next (s.command 15 tag arrival.words
    (withCount 0 arrival.words (inStates [.countdown, .run, .pausing, .paused] (State.stopCommand arrival.ahead))))

/-- CLEAR (R95, R96). -/
def execClear (tag : Byte) (args : List Word) (s : State) : Host.Outcome State Fault Refusal :=
  .next (s.command 16 tag args (withCount 0 args State.clearCommand))

/-- READ_EVENT (R205). -/
def execReadEvent (tag : Byte) (args : List Word) (s : State) : Host.Outcome State Fault Refusal :=
  .next (s.command 17 tag args (withCount 0 args State.readEvent))

/-- READ_TABLE (R206). -/
def execReadTable (tag : Byte) (args : List Word) (s : State) : Host.Outcome State Fault Refusal :=
  .next (s.command 18 tag args
    (withCount 2 args (State.readTable (argAt args 0).toNat (argAt args 1).toNat)))

/-- CLEAR_COUNTERS (R208). -/
def execClearCounters (tag : Byte) (args : List Word) (s : State) : Host.Outcome State Fault Refusal :=
  .next (s.command 19 tag args (withCount 0 args State.clearCounters))

/-- RESET_NODE (R209). -/
def execResetNode (tag : Byte) (args : List Word) (s : State) : Host.Outcome State Fault Refusal :=
  .next (s.command 20 tag args (withCount 0 args State.resetNode))

end Sys2Proof.Machine
end

