-- ==== Sys2Proof/Machine/Dispatch.lean ====
section
/-! DEFINITION. The effect of every command of the table on everything but the queue: one arm per constructor of Instr. -/

namespace Sys2Proof.Machine

def exec (i : Instr) (s : State) : Host.Outcome State Fault Refusal :=
  match i with
  | .powerOnReset => Sys2Proof.Machine.execPowerOnReset s
  | .resetRelease => Sys2Proof.Machine.execResetRelease s
  | .resetNodeTakesEffect => Sys2Proof.Machine.execResetNodeTakesEffect s
  | .resetNodeEnd => Sys2Proof.Machine.execResetNodeEnd s
  | .cycleBoundary first => Sys2Proof.Machine.execCycleBoundary first s
  | .outputInstant first => Sys2Proof.Machine.execOutputInstant first s
  | .feedbackWord straddles bits => Sys2Proof.Machine.execFeedbackWord straddles bits s
  | .servoReady level => Sys2Proof.Machine.execServoReady level s
  | .signalPresent side => Sys2Proof.Machine.execSignalPresent side s
  | .signalLost side => Sys2Proof.Machine.execSignalLost side s
  | .downHoldExpiry side => Sys2Proof.Machine.execDownHoldExpiry side s
  | .laneWord side profile flags check => Sys2Proof.Machine.execLaneWord side profile flags check s
  | .sideTrained side => Sys2Proof.Machine.execSideTrained side s
  | .frameArrival lane closed bytes => Sys2Proof.Machine.execFrameArrival lane closed bytes s
  | .frameCheckDown side => Sys2Proof.Machine.execFrameCheckDown side s
  | .transmitStart lane edges => Sys2Proof.Machine.execTransmitStart lane edges s
  | .deliveryCopyTaken n => Sys2Proof.Machine.execDeliveryCopyTaken n s
  | .resynchronisation n => Sys2Proof.Machine.execResynchronisation n s
  | .pathDegraded n => Sys2Proof.Machine.execPathDegraded n s
  | .stepLoss n => Sys2Proof.Machine.execStepLoss n s
  | .feedbackLoss first => Sys2Proof.Machine.execFeedbackLoss first s
  | .rampEndReport first => Sys2Proof.Machine.execRampEndReport first s
  | .assemblyComplete first => Sys2Proof.Machine.execAssemblyComplete first s
  | .peerSilent first j => Sys2Proof.Machine.execPeerSilent first j s
  | .ringOpen first lane => Sys2Proof.Machine.execRingOpen first lane s
  | .markerPulseEnd first => Sys2Proof.Machine.execMarkerPulseEnd first s
  | .peerLate first j => Sys2Proof.Machine.execPeerLate first j s
  | .sampleBurstCompletion => Sys2Proof.Machine.execSampleBurstCompletion s
  | .shapeLoadBurstCompletion => Sys2Proof.Machine.execShapeLoadBurstCompletion s
  | .writeChunkCompletion => Sys2Proof.Machine.execWriteChunkCompletion s
  | .readChunkCompletion => Sys2Proof.Machine.execReadChunkCompletion s
  | .malformedTransaction straddles bytes => Sys2Proof.Machine.execMalformedTransaction straddles bytes s
  | .readReply clocked => Sys2Proof.Machine.execReadReply clocked s
  | .getStatus tag args => Sys2Proof.Machine.execGetStatus tag args s
  | .writeConfig tag args => Sys2Proof.Machine.execWriteConfig tag args s
  | .goOnline tag args => Sys2Proof.Machine.execGoOnline tag args s
  | .writePage tag args => Sys2Proof.Machine.execWritePage tag args s
  | .readPage tag args => Sys2Proof.Machine.execReadPage tag args s
  | .appendSegment tag args => Sys2Proof.Machine.execAppendSegment tag args s
  | .discardSchedule tag args => Sys2Proof.Machine.execDiscardSchedule tag args s
  | .seekRepeat tag args => Sys2Proof.Machine.execSeekRepeat tag args s
  | .writeCoupling tag args => Sys2Proof.Machine.execWriteCoupling tag args s
  | .applyCoupling tag args => Sys2Proof.Machine.execApplyCoupling tag args s
  | .start tag args => Sys2Proof.Machine.execStart tag args s
  | .pause tag args => Sys2Proof.Machine.execPause tag args s
  | .resume tag args => Sys2Proof.Machine.execResume tag args s
  | .setLevel tag args => Sys2Proof.Machine.execSetLevel tag args s
  | .stop tag arrival => Sys2Proof.Machine.execStop tag arrival s
  | .clear tag args => Sys2Proof.Machine.execClear tag args s
  | .readEvent tag args => Sys2Proof.Machine.execReadEvent tag args s
  | .readTable tag args => Sys2Proof.Machine.execReadTable tag args s
  | .clearCounters tag args => Sys2Proof.Machine.execClearCounters tag args s
  | .resetNode tag args => Sys2Proof.Machine.execResetNode tag args s
  | .arrivalStamp lane edges => Sys2Proof.Machine.execArrivalStamp lane edges s
  | .transmissionEnd lane => Sys2Proof.Machine.execTransmissionEnd lane s
  | .powerLoss => Sys2Proof.Machine.execPowerLoss s

end Sys2Proof.Machine
end

