-- ==== Sys2Proof/Laws/State.lean ====
section
/-! SUPPORT. The small lemmas of the named updates of State: one per field that an update leaves, and one for what it changes. -/

namespace Sys2Proof.Machine

/-! ### A side record changed -/

@[simp] theorem State.onSide_cond (s : State) (d : Side) (f : SideRec → SideRec) : (s.onSide d f).cond = s.cond := rfl
@[simp] theorem State.onSide_drive (s : State) (d : Side) (f : SideRec → SideRec) : (s.onSide d f).drive = s.drive := rfl
@[simp] theorem State.onSide_sched (s : State) (d : Side) (f : SideRec → SideRec) : (s.onSide d f).sched = s.sched := rfl
@[simp] theorem State.onSide_store (s : State) (d : Side) (f : SideRec → SideRec) : (s.onSide d f).store = s.store := rfl
@[simp] theorem State.onSide_arb (s : State) (d : Side) (f : SideRec → SideRec) : (s.onSide d f).arb = s.arb := rfl
@[simp] theorem State.onSide_servo (s : State) (d : Side) (f : SideRec → SideRec) : (s.onSide d f).servo = s.servo := rfl
@[simp] theorem State.onSide_run (s : State) (d : Side) (f : SideRec → SideRec) : (s.onSide d f).run = s.run := rfl
@[simp] theorem State.onSide_orders (s : State) (d : Side) (f : SideRec → SideRec) : (s.onSide d f).orders = s.orders := rfl
@[simp] theorem State.onSide_time (s : State) (d : Side) (f : SideRec → SideRec) : (s.onSide d f).time = s.time := rfl
@[simp] theorem State.onSide_peers (s : State) (d : Side) (f : SideRec → SideRec) : (s.onSide d f).peers = s.peers := rfl
@[simp] theorem State.onSide_filter (s : State) (d : Side) (f : SideRec → SideRec) : (s.onSide d f).filter = s.filter := rfl
@[simp] theorem State.onSide_waiting (s : State) (d : Side) (f : SideRec → SideRec) : (s.onSide d f).waiting = s.waiting := rfl
@[simp] theorem State.onSide_port (s : State) (d : Side) (f : SideRec → SideRec) : (s.onSide d f).port = s.port := rfl
@[simp] theorem State.onSide_scratch (s : State) (d : Side) (f : SideRec → SideRec) : (s.onSide d f).scratch = s.scratch := rfl
@[simp] theorem State.onSide_cuts (s : State) (d : Side) (f : SideRec → SideRec) : (s.onSide d f).cuts = s.cuts := rfl
@[simp] theorem State.onSide_pending (s : State) (d : Side) (f : SideRec → SideRec) : (s.onSide d f).pending = s.pending := rfl

/-! ### A lane record changed -/

@[simp] theorem State.onLane_cond (s : State) (l : Lane) (f : LaneRec → LaneRec) : (s.onLane l f).cond = s.cond := rfl
@[simp] theorem State.onLane_drive (s : State) (l : Lane) (f : LaneRec → LaneRec) : (s.onLane l f).drive = s.drive := rfl
@[simp] theorem State.onLane_sched (s : State) (l : Lane) (f : LaneRec → LaneRec) : (s.onLane l f).sched = s.sched := rfl
@[simp] theorem State.onLane_store (s : State) (l : Lane) (f : LaneRec → LaneRec) : (s.onLane l f).store = s.store := rfl
@[simp] theorem State.onLane_arb (s : State) (l : Lane) (f : LaneRec → LaneRec) : (s.onLane l f).arb = s.arb := rfl
@[simp] theorem State.onLane_servo (s : State) (l : Lane) (f : LaneRec → LaneRec) : (s.onLane l f).servo = s.servo := rfl
@[simp] theorem State.onLane_run (s : State) (l : Lane) (f : LaneRec → LaneRec) : (s.onLane l f).run = s.run := rfl
@[simp] theorem State.onLane_orders (s : State) (l : Lane) (f : LaneRec → LaneRec) : (s.onLane l f).orders = s.orders := rfl
@[simp] theorem State.onLane_time (s : State) (l : Lane) (f : LaneRec → LaneRec) : (s.onLane l f).time = s.time := rfl
@[simp] theorem State.onLane_peers (s : State) (l : Lane) (f : LaneRec → LaneRec) : (s.onLane l f).peers = s.peers := rfl
@[simp] theorem State.onLane_filter (s : State) (l : Lane) (f : LaneRec → LaneRec) : (s.onLane l f).filter = s.filter := rfl
@[simp] theorem State.onLane_waiting (s : State) (l : Lane) (f : LaneRec → LaneRec) : (s.onLane l f).waiting = s.waiting := rfl
@[simp] theorem State.onLane_port (s : State) (l : Lane) (f : LaneRec → LaneRec) : (s.onLane l f).port = s.port := rfl
@[simp] theorem State.onLane_scratch (s : State) (l : Lane) (f : LaneRec → LaneRec) : (s.onLane l f).scratch = s.scratch := rfl
@[simp] theorem State.onLane_cuts (s : State) (l : Lane) (f : LaneRec → LaneRec) : (s.onLane l f).cuts = s.cuts := rfl
@[simp] theorem State.onLane_pending (s : State) (l : Lane) (f : LaneRec → LaneRec) : (s.onLane l f).pending = s.pending := rfl

/-! ### A peer table entry changed -/

@[simp] theorem State.onPeer_cond (s : State) (j : Station) (f : Peer → Peer) : (s.onPeer j f).cond = s.cond := rfl
@[simp] theorem State.onPeer_drive (s : State) (j : Station) (f : Peer → Peer) : (s.onPeer j f).drive = s.drive := rfl
@[simp] theorem State.onPeer_sched (s : State) (j : Station) (f : Peer → Peer) : (s.onPeer j f).sched = s.sched := rfl
@[simp] theorem State.onPeer_store (s : State) (j : Station) (f : Peer → Peer) : (s.onPeer j f).store = s.store := rfl
@[simp] theorem State.onPeer_arb (s : State) (j : Station) (f : Peer → Peer) : (s.onPeer j f).arb = s.arb := rfl
@[simp] theorem State.onPeer_servo (s : State) (j : Station) (f : Peer → Peer) : (s.onPeer j f).servo = s.servo := rfl
@[simp] theorem State.onPeer_run (s : State) (j : Station) (f : Peer → Peer) : (s.onPeer j f).run = s.run := rfl
@[simp] theorem State.onPeer_orders (s : State) (j : Station) (f : Peer → Peer) : (s.onPeer j f).orders = s.orders := rfl
@[simp] theorem State.onPeer_time (s : State) (j : Station) (f : Peer → Peer) : (s.onPeer j f).time = s.time := rfl
@[simp] theorem State.onPeer_filter (s : State) (j : Station) (f : Peer → Peer) : (s.onPeer j f).filter = s.filter := rfl
@[simp] theorem State.onPeer_waiting (s : State) (j : Station) (f : Peer → Peer) : (s.onPeer j f).waiting = s.waiting := rfl
@[simp] theorem State.onPeer_ring (s : State) (j : Station) (f : Peer → Peer) : (s.onPeer j f).ring = s.ring := rfl
@[simp] theorem State.onPeer_port (s : State) (j : Station) (f : Peer → Peer) : (s.onPeer j f).port = s.port := rfl
@[simp] theorem State.onPeer_scratch (s : State) (j : Station) (f : Peer → Peer) : (s.onPeer j f).scratch = s.scratch := rfl
@[simp] theorem State.onPeer_cuts (s : State) (j : Station) (f : Peer → Peer) : (s.onPeer j f).cuts = s.cuts := rfl
@[simp] theorem State.onPeer_pending (s : State) (j : Station) (f : Peer → Peer) : (s.onPeer j f).pending = s.pending := rfl

/-! ### A filter entry put anew -/

@[simp] theorem State.setFilter_cond (s : State) (j : Station) (e : FilterEntry) : (s.setFilter j e).cond = s.cond := rfl
@[simp] theorem State.setFilter_drive (s : State) (j : Station) (e : FilterEntry) : (s.setFilter j e).drive = s.drive := rfl
@[simp] theorem State.setFilter_sched (s : State) (j : Station) (e : FilterEntry) : (s.setFilter j e).sched = s.sched := rfl
@[simp] theorem State.setFilter_store (s : State) (j : Station) (e : FilterEntry) : (s.setFilter j e).store = s.store := rfl
@[simp] theorem State.setFilter_arb (s : State) (j : Station) (e : FilterEntry) : (s.setFilter j e).arb = s.arb := rfl
@[simp] theorem State.setFilter_servo (s : State) (j : Station) (e : FilterEntry) : (s.setFilter j e).servo = s.servo := rfl
@[simp] theorem State.setFilter_run (s : State) (j : Station) (e : FilterEntry) : (s.setFilter j e).run = s.run := rfl
@[simp] theorem State.setFilter_orders (s : State) (j : Station) (e : FilterEntry) : (s.setFilter j e).orders = s.orders := rfl
@[simp] theorem State.setFilter_time (s : State) (j : Station) (e : FilterEntry) : (s.setFilter j e).time = s.time := rfl
@[simp] theorem State.setFilter_peers (s : State) (j : Station) (e : FilterEntry) : (s.setFilter j e).peers = s.peers := rfl
@[simp] theorem State.setFilter_waiting (s : State) (j : Station) (e : FilterEntry) : (s.setFilter j e).waiting = s.waiting := rfl
@[simp] theorem State.setFilter_ring (s : State) (j : Station) (e : FilterEntry) : (s.setFilter j e).ring = s.ring := rfl
@[simp] theorem State.setFilter_port (s : State) (j : Station) (e : FilterEntry) : (s.setFilter j e).port = s.port := rfl
@[simp] theorem State.setFilter_scratch (s : State) (j : Station) (e : FilterEntry) : (s.setFilter j e).scratch = s.scratch := rfl
@[simp] theorem State.setFilter_cuts (s : State) (j : Station) (e : FilterEntry) : (s.setFilter j e).cuts = s.cuts := rfl
@[simp] theorem State.setFilter_pending (s : State) (j : Station) (e : FilterEntry) : (s.setFilter j e).pending = s.pending := rfl

/-! ### The reader hold set -/

@[simp] theorem State.setHold_cond (s : State) (b : Bool) : (s.setHold b).cond = s.cond := rfl
@[simp] theorem State.setHold_drive (s : State) (b : Bool) : (s.setHold b).drive = s.drive := rfl
@[simp] theorem State.setHold_store (s : State) (b : Bool) : (s.setHold b).store = s.store := rfl
@[simp] theorem State.setHold_arb (s : State) (b : Bool) : (s.setHold b).arb = s.arb := rfl
@[simp] theorem State.setHold_servo (s : State) (b : Bool) : (s.setHold b).servo = s.servo := rfl
@[simp] theorem State.setHold_run (s : State) (b : Bool) : (s.setHold b).run = s.run := rfl
@[simp] theorem State.setHold_orders (s : State) (b : Bool) : (s.setHold b).orders = s.orders := rfl
@[simp] theorem State.setHold_time (s : State) (b : Bool) : (s.setHold b).time = s.time := rfl
@[simp] theorem State.setHold_peers (s : State) (b : Bool) : (s.setHold b).peers = s.peers := rfl
@[simp] theorem State.setHold_filter (s : State) (b : Bool) : (s.setHold b).filter = s.filter := rfl
@[simp] theorem State.setHold_waiting (s : State) (b : Bool) : (s.setHold b).waiting = s.waiting := rfl
@[simp] theorem State.setHold_ring (s : State) (b : Bool) : (s.setHold b).ring = s.ring := rfl
@[simp] theorem State.setHold_port (s : State) (b : Bool) : (s.setHold b).port = s.port := rfl
@[simp] theorem State.setHold_scratch (s : State) (b : Bool) : (s.setHold b).scratch = s.scratch := rfl
@[simp] theorem State.setHold_cuts (s : State) (b : Bool) : (s.setHold b).cuts = s.cuts := rfl
@[simp] theorem State.setHold_pending (s : State) (b : Bool) : (s.setHold b).pending = s.pending := rfl

/-! ### A happening marked -/

@[simp] theorem State.bring_cond (s : State) (h : Happening) : (s.bring h).cond = s.cond := rfl
@[simp] theorem State.bring_drive (s : State) (h : Happening) : (s.bring h).drive = s.drive := rfl
@[simp] theorem State.bring_sched (s : State) (h : Happening) : (s.bring h).sched = s.sched := rfl
@[simp] theorem State.bring_store (s : State) (h : Happening) : (s.bring h).store = s.store := rfl
@[simp] theorem State.bring_arb (s : State) (h : Happening) : (s.bring h).arb = s.arb := rfl
@[simp] theorem State.bring_servo (s : State) (h : Happening) : (s.bring h).servo = s.servo := rfl
@[simp] theorem State.bring_run (s : State) (h : Happening) : (s.bring h).run = s.run := rfl
@[simp] theorem State.bring_orders (s : State) (h : Happening) : (s.bring h).orders = s.orders := rfl
@[simp] theorem State.bring_time (s : State) (h : Happening) : (s.bring h).time = s.time := rfl
@[simp] theorem State.bring_peers (s : State) (h : Happening) : (s.bring h).peers = s.peers := rfl
@[simp] theorem State.bring_filter (s : State) (h : Happening) : (s.bring h).filter = s.filter := rfl
@[simp] theorem State.bring_waiting (s : State) (h : Happening) : (s.bring h).waiting = s.waiting := rfl
@[simp] theorem State.bring_ring (s : State) (h : Happening) : (s.bring h).ring = s.ring := rfl
@[simp] theorem State.bring_port (s : State) (h : Happening) : (s.bring h).port = s.port := rfl
@[simp] theorem State.bring_cuts (s : State) (h : Happening) : (s.bring h).cuts = s.cuts := rfl
@[simp] theorem State.bring_pending (s : State) (h : Happening) : (s.bring h).pending = s.pending := rfl

/-! ### The scratch brought to rest -/

@[simp] theorem State.settle_cond (s : State) : (s.settle).cond = s.cond := rfl
@[simp] theorem State.settle_drive (s : State) : (s.settle).drive = s.drive := rfl
@[simp] theorem State.settle_sched (s : State) : (s.settle).sched = s.sched := rfl
@[simp] theorem State.settle_store (s : State) : (s.settle).store = s.store := rfl
@[simp] theorem State.settle_arb (s : State) : (s.settle).arb = s.arb := rfl
@[simp] theorem State.settle_servo (s : State) : (s.settle).servo = s.servo := rfl
@[simp] theorem State.settle_run (s : State) : (s.settle).run = s.run := rfl
@[simp] theorem State.settle_orders (s : State) : (s.settle).orders = s.orders := rfl
@[simp] theorem State.settle_time (s : State) : (s.settle).time = s.time := rfl
@[simp] theorem State.settle_peers (s : State) : (s.settle).peers = s.peers := rfl
@[simp] theorem State.settle_filter (s : State) : (s.settle).filter = s.filter := rfl
@[simp] theorem State.settle_waiting (s : State) : (s.settle).waiting = s.waiting := rfl
@[simp] theorem State.settle_ring (s : State) : (s.settle).ring = s.ring := rfl
@[simp] theorem State.settle_port (s : State) : (s.settle).port = s.port := rfl
@[simp] theorem State.settle_cuts (s : State) : (s.settle).cuts = s.cuts := rfl
@[simp] theorem State.settle_pending (s : State) : (s.settle).pending = s.pending := rfl

/-! ### A counter raised -/

@[simp] theorem State.count_cond (s : State) (c : Counter) (n : Nat) : (s.count c n).cond = s.cond := rfl
@[simp] theorem State.count_drive (s : State) (c : Counter) (n : Nat) : (s.count c n).drive = s.drive := rfl
@[simp] theorem State.count_sched (s : State) (c : Counter) (n : Nat) : (s.count c n).sched = s.sched := rfl
@[simp] theorem State.count_store (s : State) (c : Counter) (n : Nat) : (s.count c n).store = s.store := rfl
@[simp] theorem State.count_arb (s : State) (c : Counter) (n : Nat) : (s.count c n).arb = s.arb := rfl
@[simp] theorem State.count_servo (s : State) (c : Counter) (n : Nat) : (s.count c n).servo = s.servo := rfl
@[simp] theorem State.count_run (s : State) (c : Counter) (n : Nat) : (s.count c n).run = s.run := rfl
@[simp] theorem State.count_orders (s : State) (c : Counter) (n : Nat) : (s.count c n).orders = s.orders := rfl
@[simp] theorem State.count_time (s : State) (c : Counter) (n : Nat) : (s.count c n).time = s.time := rfl
@[simp] theorem State.count_peers (s : State) (c : Counter) (n : Nat) : (s.count c n).peers = s.peers := rfl
@[simp] theorem State.count_filter (s : State) (c : Counter) (n : Nat) : (s.count c n).filter = s.filter := rfl
@[simp] theorem State.count_waiting (s : State) (c : Counter) (n : Nat) : (s.count c n).waiting = s.waiting := rfl
@[simp] theorem State.count_ring (s : State) (c : Counter) (n : Nat) : (s.count c n).ring = s.ring := rfl
@[simp] theorem State.count_scratch (s : State) (c : Counter) (n : Nat) : (s.count c n).scratch = s.scratch := rfl
@[simp] theorem State.count_cuts (s : State) (c : Counter) (n : Nat) : (s.count c n).cuts = s.cuts := rfl
@[simp] theorem State.count_pending (s : State) (c : Counter) (n : Nat) : (s.count c n).pending = s.pending := rfl

/-! ### A counter incremented -/

@[simp] theorem State.bump_cond (s : State) (c : Counter) : (s.bump c).cond = s.cond := rfl
@[simp] theorem State.bump_drive (s : State) (c : Counter) : (s.bump c).drive = s.drive := rfl
@[simp] theorem State.bump_sched (s : State) (c : Counter) : (s.bump c).sched = s.sched := rfl
@[simp] theorem State.bump_store (s : State) (c : Counter) : (s.bump c).store = s.store := rfl
@[simp] theorem State.bump_arb (s : State) (c : Counter) : (s.bump c).arb = s.arb := rfl
@[simp] theorem State.bump_servo (s : State) (c : Counter) : (s.bump c).servo = s.servo := rfl
@[simp] theorem State.bump_run (s : State) (c : Counter) : (s.bump c).run = s.run := rfl
@[simp] theorem State.bump_orders (s : State) (c : Counter) : (s.bump c).orders = s.orders := rfl
@[simp] theorem State.bump_time (s : State) (c : Counter) : (s.bump c).time = s.time := rfl
@[simp] theorem State.bump_peers (s : State) (c : Counter) : (s.bump c).peers = s.peers := rfl
@[simp] theorem State.bump_filter (s : State) (c : Counter) : (s.bump c).filter = s.filter := rfl
@[simp] theorem State.bump_waiting (s : State) (c : Counter) : (s.bump c).waiting = s.waiting := rfl
@[simp] theorem State.bump_ring (s : State) (c : Counter) : (s.bump c).ring = s.ring := rfl
@[simp] theorem State.bump_scratch (s : State) (c : Counter) : (s.bump c).scratch = s.scratch := rfl
@[simp] theorem State.bump_cuts (s : State) (c : Counter) : (s.bump c).cuts = s.cuts := rfl
@[simp] theorem State.bump_pending (s : State) (c : Counter) : (s.bump c).pending = s.pending := rfl

/-! ### An event posted -/

@[simp] theorem State.post_cond (s : State) (k : EventKind) (a b : Word) : (s.post k a b).cond = s.cond := by
  unfold State.post
  split <;> rfl
@[simp] theorem State.post_drive (s : State) (k : EventKind) (a b : Word) : (s.post k a b).drive = s.drive := by
  unfold State.post
  split <;> rfl
@[simp] theorem State.post_sched (s : State) (k : EventKind) (a b : Word) : (s.post k a b).sched = s.sched := by
  unfold State.post
  split <;> rfl
@[simp] theorem State.post_store (s : State) (k : EventKind) (a b : Word) : (s.post k a b).store = s.store := by
  unfold State.post
  split <;> rfl
@[simp] theorem State.post_arb (s : State) (k : EventKind) (a b : Word) : (s.post k a b).arb = s.arb := by
  unfold State.post
  split <;> rfl
@[simp] theorem State.post_servo (s : State) (k : EventKind) (a b : Word) : (s.post k a b).servo = s.servo := by
  unfold State.post
  split <;> rfl
@[simp] theorem State.post_run (s : State) (k : EventKind) (a b : Word) : (s.post k a b).run = s.run := by
  unfold State.post
  split <;> rfl
@[simp] theorem State.post_orders (s : State) (k : EventKind) (a b : Word) : (s.post k a b).orders = s.orders := by
  unfold State.post
  split <;> rfl
@[simp] theorem State.post_time (s : State) (k : EventKind) (a b : Word) : (s.post k a b).time = s.time := by
  unfold State.post
  split <;> rfl
@[simp] theorem State.post_peers (s : State) (k : EventKind) (a b : Word) : (s.post k a b).peers = s.peers := by
  unfold State.post
  split <;> rfl
@[simp] theorem State.post_filter (s : State) (k : EventKind) (a b : Word) : (s.post k a b).filter = s.filter := by
  unfold State.post
  split <;> rfl
@[simp] theorem State.post_waiting (s : State) (k : EventKind) (a b : Word) : (s.post k a b).waiting = s.waiting := by
  unfold State.post
  split <;> rfl
@[simp] theorem State.post_ring (s : State) (k : EventKind) (a b : Word) : (s.post k a b).ring = s.ring := by
  unfold State.post
  split <;> rfl
@[simp] theorem State.post_scratch (s : State) (k : EventKind) (a b : Word) : (s.post k a b).scratch = s.scratch := by
  unfold State.post
  split <;> rfl
@[simp] theorem State.post_cuts (s : State) (k : EventKind) (a b : Word) : (s.post k a b).cuts = s.cuts := by
  unfold State.post
  split <;> rfl
@[simp] theorem State.post_pending (s : State) (k : EventKind) (a b : Word) : (s.post k a b).pending = s.pending := by
  unfold State.post
  split <;> rfl

/-! ### What the updates change -/

@[simp] theorem put_get_same {α : Type} (t : Vector α 16) (j : Station) (x : α) : (put t j x).get j = x := by
  simp [put, Vector.get_eq_getElem]

@[simp] theorem put_get_other {α : Type} (t : Vector α 16) (j k : Station) (x : α) (h : k ≠ j) :
    (put t j x).get k = t.get k := by
  have : j.val ≠ k.val := fun e => h (Fin.ext e.symm)
  simp [put, Vector.get_eq_getElem, Vector.getElem_set_ne, this]

@[simp] theorem State.onPeer_peer (s : State) (j : Station) (f : Peer → Peer) : (s.onPeer j f).peer j = f (s.peer j) := by
  simp [State.onPeer, State.peer]

@[simp] theorem State.onPeer_peer_other (s : State) (j k : Station) (f : Peer → Peer) (h : k ≠ j) :
    (s.onPeer j f).peer k = s.peer k := by
  simp [State.onPeer, State.peer, h]

@[simp] theorem State.onSide_side (s : State) (d : Side) (f : SideRec → SideRec) : (s.onSide d f).side d = f (s.side d) := by
  cases d <;> rfl

@[simp] theorem State.onSide_side_other (s : State) (d e : Side) (f : SideRec → SideRec) (h : e ≠ d) :
    (s.onSide d f).side e = s.side e := by
  cases d <;> cases e <;> first | rfl | exact absurd rfl h

@[simp] theorem State.onLane_lane (s : State) (l : Lane) (f : LaneRec → LaneRec) : (s.onLane l f).lane l = f (s.lane l) := by
  cases l <;> rfl

@[simp] theorem State.onLane_lane_other (s : State) (l m : Lane) (f : LaneRec → LaneRec) (h : m ≠ l) :
    (s.onLane l f).lane m = s.lane m := by
  cases l <;> cases m <;> first | rfl | exact absurd rfl h

@[simp] theorem State.onSide_lane (s : State) (d : Side) (l : Lane) (f : SideRec → SideRec) :
    (s.onSide d f).lane l = s.lane l := by
  cases d <;> cases l <;> rfl

@[simp] theorem State.onLane_side (s : State) (l : Lane) (d : Side) (f : LaneRec → LaneRec) :
    (s.onLane l f).side d = s.side d := by
  cases d <;> cases l <;> rfl

@[simp] theorem State.setFilter_get (s : State) (j : Station) (e : FilterEntry) : (s.setFilter j e).filter.get j = e := by
  simp [State.setFilter]

@[simp] theorem State.settle_scratch (s : State) : s.settle.scratch = Scratch.rest := rfl

@[simp] theorem State.bring_brought (s : State) (h : Happening) : (s.bring h).scratch.brought = h :: s.scratch.brought := rfl

@[simp] theorem State.bring_stepped (s : State) (h : Happening) : (s.bring h).scratch.stepped = s.scratch.stepped := rfl

@[simp] theorem State.setHold_hold (s : State) (b : Bool) : (s.setHold b).sched.hold = b := rfl

@[simp] theorem State.count_counter (s : State) (c : Counter) (n : Nat) :
    (s.count c n).counter c = saturate32 (s.counter c) n := by
  simp [State.counter, State.count, Vector.get_eq_getElem]

@[simp] theorem State.bump_counter (s : State) (c : Counter) : (s.bump c).counter c = saturate32 (s.counter c) 1 :=
  s.count_counter c 1

/-- Counters of different places do not touch each other. -/
theorem State.count_counter_other (s : State) (c d : Counter) (n : Nat) (h : d.place ≠ c.place) :
    (s.count c n).counter d = s.counter d := by
  have : c.place.val ≠ d.place.val := fun e => h (Fin.ext e.symm)
  simp [State.counter, State.count, Vector.get_eq_getElem, Vector.getElem_set_ne, this]

/-- A counted addition touches no field of the port but the counters. -/
theorem State.count_port (s : State) (c : Counter) (n : Nat) :
    (s.count c n).port = { s.port with counters := (s.count c n).port.counters } := rfl

/-- All that a posting can do: the record enters, or it is dropped and counted. -/
theorem State.post_cases (s : State) (k : EventKind) (a b : Word) :
    (s.port.events.length < 32 ∧
        s.post k a b = { s with port := { s.port with events := s.port.events ++ [⟨k, s.time.cycle, a, b⟩] } }) ∨
      (32 ≤ s.port.events.length ∧ s.post k a b = s.bump .eventOverflow) := by
  unfold State.post
  split
  · exact .inl ⟨‹_›, rfl⟩
  · exact .inr ⟨Nat.le_of_not_lt ‹_›, rfl⟩

end Sys2Proof.Machine
end

