-- ==== Sys2Proof/Safety.lean ====
section
/-! DEFINITION. What holds of the D416 between steps: the laws of its run states, its output, its factors, its store, its schedule, its
ring and its tables, each as a property of one state. -/

namespace Sys2Proof.Machine

/-! ### Configuration -/

/-- Every item lies in its range (R200). -/
def Items.inRanges (c : Items) : Prop :=
  c.station ≤ 16 ∧ (4096 ≤ c.outputPhase ∧ c.outputPhase ≤ 61440) ∧ c.lag ≤ 3 ∧ c.laneDelayA ≤ 4095 ∧ c.laneDelayB ≤ 4095 ∧
  (-32768 ≤ c.cmdMin ∧ c.cmdMin ≤ 32767) ∧ (-32768 ≤ c.cmdMax ∧ c.cmdMax ≤ 32767) ∧
  (-8388608 ≤ c.bias ∧ c.bias ≤ 8388607) ∧ (1 ≤ c.slewMax ∧ c.slewMax ≤ 8388607) ∧
  (-8388608 ≤ c.fbMin ∧ c.fbMin ≤ 8388607) ∧ (-8388608 ≤ c.fbMax ∧ c.fbMax ≤ 8388607) ∧
  (1 ≤ c.stopStep ∧ c.stopStep ≤ 32768) ∧ (1 ≤ c.missLimit ∧ c.missLimit ≤ 15) ∧ c.holdLimit ≤ 15 ∧
  (256 ≤ c.stepLimit ∧ c.stepLimit ≤ 32767) ∧ (1 ≤ c.staleLimit ∧ c.staleLimit ≤ 15) ∧ c.trimMax ≤ 127 ∧
  (16 ≤ c.minLead ∧ c.minLead ≤ 4096) ∧ (1 ≤ c.pulseCycles ∧ c.pulseCycles ≤ 255) ∧
  (1 ≤ c.pauseLength ∧ c.pauseLength ≤ 65535)

/-! ### Run states -/

/-- The trip line in each run state, as R97 leaves it: asserted in OFFLINE and TRIPPED, deasserted wherever STANDBY has been passed
since; in ASSEMBLY either. -/
def State.tripLaw (s : State) : Prop :=
  match s.run.state with
  | .offline => s.run.trip = true
  | .tripped => s.run.trip = true
  | .assembly => True
  | _ => s.run.trip = false

/-- The countdown order is present in COUNTDOWN and nowhere else (R70, R76). -/
def State.countdownLaw (s : State) : Prop := s.run.countdown.isSome = decide (s.run.state = .countdown)

/-- READY stands with all four READY conditions, STANDBY without them (R74). -/
def State.readyLaw (s : State) : Prop :=
  (s.run.state = .ready → s.readyConditions = true) ∧
  (s.run.state = .standby → s.rosterComplete = true ∧ s.readyConditions = false)

/-- In motion servo-ready is asserted: a loss trips the node (R62), and only a READY node enters COUNTDOWN (R74, R76). -/
def State.motionLaw (s : State) : Prop := s.run.state.inMotion = true → s.servo.ready = true

/-- The states in which nothing is played and R stands at 0. -/
def RunState.atRest (r : RunState) : Bool :=
  match r with
  | .offline => true
  | .assembly => true
  | .standby => true
  | .ready => true
  | .countdown => true
  | .stopped => true
  | _ => false

/-- Outside the states in motion R is 0 and no R descriptor stands; in TRIPPED no ramp stands (R20, R21, R76, R80). -/
def State.restLaw (s : State) : Prop :=
  (s.run.state.atRest = true → s.drive.ramp = 0 ∧ s.drive.runRamp = none) ∧
  (s.run.state = .tripped → s.drive.levelRamp = none ∧ s.drive.runRamp = none)

/-! ### The drive unit -/

/-- OFFLINE presents 0; online the station number is 1 to 16 and P, the residual and the code lie in their ranges (R3, R17 to
R19, R201). -/
def State.outputLaw (s : State) : Prop :=
  s.items.inRanges ∧
  if s.run.state = .offline then s.drive.code = 0 ∧ s.drive.prev = 0 ∧ s.drive.residual = 0
  else
    1 ≤ s.ownNumber ∧ s.items.cmdMin < s.items.cmdMax ∧
    (s.items.cmdMin * 256 ≤ s.drive.prev ∧ s.drive.prev ≤ s.items.cmdMax * 256) ∧
    (-128 ≤ s.drive.residual ∧ s.drive.residual ≤ 127) ∧
    (s.items.cmdMin ≤ s.drive.code ∧ s.drive.code ≤ s.items.cmdMax)

/-- A ramp within the factor range with steps left (R22). -/
def Ramp.sound (r : Ramp) : Prop :=
  r.start ≤ 32768 ∧ r.target ≤ 32768 ∧ r.step < r.length ∧ r.length ≤ 65535

/-- An order record is normalised (R99). -/
def Order.normalised (o : Order) : Prop := 1 ≤ o.a ∧ o.a ≤ 65535 ∧ o.b ≤ 32768

/-- A 16-bit signed quantity. -/
def inSigned16 (x : Int) : Prop := -32768 ≤ x ∧ x ≤ 32767

/-- L and R lie in 0 .. 32768, with what may change them; the held sample and the coefficients in 16 bits (R3, R22, R26, R99). -/
def State.factorLaw (s : State) : Prop :=
  s.items.inRanges ∧ s.drive.level ≤ 32768 ∧ s.drive.ramp ≤ 32768 ∧ inSigned16 s.drive.held ∧
  (∀ j : Station, inSigned16 (s.drive.active.get j) ∧ inSigned16 (s.drive.pendingBank.get j)) ∧
  (∀ r, s.drive.levelRamp = some r → r.sound) ∧
  (∀ r, s.drive.runRamp = some (.ramp r) → r.sound) ∧
  (∀ o ∈ s.orders.pending, o.normalised)

/-! ### Store and schedule -/

/-- A chunk lies within one page of the store (R31). -/
def Chunk.inPage : Chunk → Prop
  | .write first ws => first < storeWords ∧ first % 4096 + ws.length ≤ 4096
  | .read first count => first < storeWords ∧ first % 4096 + count ≤ 4096

/-- A shape-load burst names one of the 16 shapes (R29). -/
def Burst.shapeInRange : Burst → Prop
  | .shape k => k < 16
  | .sample _ _ _ => True

/-- Store and shape copy in canonical form, every listed word within them (R28, R29, R31). -/
def State.storeLaw (s : State) : Prop :=
  s.store.wf ∧ (∀ c ∈ s.store, c.1 < storeWords) ∧
  s.sched.shapes.wf ∧ (∀ c ∈ s.sched.shapes, c.1 < 4096) ∧
  (∀ c, s.arb.chunk = some c → c.inPage) ∧ (∀ b, s.sched.burst = some b → b.shapeInRange)

/-- A schedule entry lies in the ranges of R38. -/
def Entry.inRanges (e : Entry) : Prop :=
  (1 ≤ e.tag ∧ e.tag ≤ 65535) ∧ (1 ≤ e.length ∧ e.length ≤ 16777216) ∧ e.startPage + (e.length + 4095) / 4096 ≤ 8191 ∧
  (1 ≤ e.repeats ∧ e.repeats ≤ 65535) ∧ e.gain ≤ 65535 ∧ e.fadeIn ≤ 4095 ∧ e.fadeOut ≤ 4095 ∧
  e.fadeIn + e.fadeOut ≤ e.length ∧ e.shape ≤ 15

/-- The playback position of a head stands in it, and N = H + (r - 1) × length + i (R42). -/
def HeadPos.sound (p : HeadPos) (e : Entry) (next : Word) : Prop :=
  (1 ≤ p.rep ∧ p.rep ≤ e.repeats) ∧ p.offset < e.length ∧ next = p.start + word ((p.rep - 1) * e.length + p.offset)

/-- At most 64 entries, each in range; a head exactly when the queue holds one, with its position (R38, R42). -/
def State.scheduleLaw (s : State) : Prop :=
  s.sched.queue.length ≤ 64 ∧ (∀ e ∈ s.sched.queue, e.inRanges) ∧
  match s.sched.queue, s.sched.head with
  | [], none => True
  | e :: _, some p => p.sound e s.sched.next
  | _, _ => False

/-- The samples that the outstanding burst can still bring into the FIFO. -/
def Sched.incoming (c : Sched) : Nat :=
  match c.burst with
  | some (.sample _ n false) => n
  | _ => 0

/-- The FIFO never exceeds 1024 samples, is empty while there is debt, and the debt stays in 32 bits (R33, R35). -/
def State.fifoLaw (s : State) : Prop :=
  s.sched.fifo.length + s.sched.incoming ≤ 1024 ∧ (0 < s.sched.debt → s.sched.fifo = []) ∧ s.sched.debt ≤ 4294967295

/-! ### Order unit and timebase -/

/-- At most 4 pending orders and 8 identities (R98, R111, R112). -/
def State.orderLaw (s : State) : Prop := s.orders.pending.length ≤ 4 ∧ s.orders.history.length ≤ 8

/-- The trim lies within TrimMax of 0, and is 0 in OFFLINE (R122, R132). -/
def State.trimLaw (s : State) : Prop :=
  (-(s.items.trimMax : Int) ≤ s.time.trim ∧ s.time.trim ≤ s.items.trimMax) ∧ (s.run.state = .offline → s.time.trim = 0)

/-- While the output instant of a cycle is still to come, the phase lies below the largest OutputPhase: every cycle has an edge left
for its instant (R121, R123). -/
def State.clockLaw (s : State) : Prop := s.time.mark = false → s.phase < 61440

/-! ### Peer table and duplicate filter -/

/-- A peer window: at most 8 records in strictly rising index (R149). -/
def windowSound (w : List WindowRecord) : Prop := w.length ≤ 8 ∧ w.Pairwise (fun x y => x.index.toNat < y.index.toNat)

/-- The feedback of each record is a 24-bit signed value (R148, R191). -/
def feedbackSound (w : List WindowRecord) : Prop := ∀ x ∈ w, -8388608 ≤ x.feedback ∧ x.feedback ≤ 8388607

/-- The counts of a peer table entry lie in their ranges (R136). -/
def Peer.inRanges (p : Peer) : Prop :=
  p.cycles ≤ 255 ∧ (-32767 ≤ p.offset ∧ p.offset ≤ 32767) ∧ p.stepRun < 8 ∧ p.holdRun ≤ 255 ∧ p.restarts ≤ 65535 ∧
  windowSound p.window ∧ feedbackSound p.window

/-- The counts of a filter entry lie in their ranges (R158). -/
def FilterEntry.inRanges (e : FilterEntry) : Prop := e.staleRun < 16 ∧ e.singleRun ≤ 64

/-- Every peer and filter entry lies in its ranges (R136, R158). -/
def State.tableLaw (s : State) : Prop :=
  ∀ j : Station, (s.peer j).inRanges ∧ (s.filter.get j).inRanges

/-- Who takes part (R136, R137, R139): LISTED, ACTIVE and SILENT entries are expected; the own entry stays UNSEEN with an empty
window and no copy of an own frame waits; in OFFLINE every entry is UNSEEN and no copy waits. -/
def State.rosterLaw (s : State) : Prop :=
  (∀ j : Station, (s.peer j).state.member = true → (s.peer j).expected = true) ∧
  (∀ j : Station, stationNumber j = s.ownNumber → (s.peer j).state = .unseen ∧ (s.peer j).window = []) ∧
  (∀ c ∈ s.waiting, c.frame.source.toNat ≠ s.ownNumber) ∧
  (s.run.state = .offline → s.waiting = [] ∧ ∀ j : Station, (s.peer j).state = .unseen ∧ (s.peer j).window = [])

/-! ### Ring ports and supervisor port -/

/-- A cable side: counts in range, and a down hold of 10 µs at most (R173). -/
def SideRec.sound (x : SideRec) : Prop :=
  x.hold ≤ 500 ∧ x.words ≤ 8 ∧ x.fails ≤ 8 ∧ (x.state = .training → x.words < 8) ∧ (x.state = .up → x.fails < 8)

/-- A lane: at most 16 frames, an own frame at the head alone, counts in range (R173, R182, R185). -/
def LaneRec.sound (x : LaneRec) : Prop :=
  x.queue.length ≤ 16 ∧ (∀ q ∈ x.queue.tail, q.isForwarded = true) ∧ x.misses ≤ 4 ∧ (x.closed = true → x.misses < 4)

/-- Both sides and both lanes are sound (R173). -/
def State.ringLaw (s : State) : Prop :=
  s.ring.west.sound ∧ s.ring.east.sound ∧ s.ring.a.sound ∧ s.ring.b.sound

/-- At most 32 events, and no counter above 4,294,967,295 (R204, R207). -/
def State.portLaw (s : State) : Prop :=
  s.port.events.length ≤ 32 ∧ ∀ k : Fin 52, s.port.counters.get k ≤ 4294967295

/-! ### What the statements speak of -/

/-- The part runs, and no supervisor command is in progress (R198). -/
def State.takesCommands (s : State) : Prop := s.cond = .running ∧ s.port.progress = none

/-- A supervisor command of `n` argument words taken and finished, with nothing else changed (R196, R198). -/
def State.replied (code : Nat) (tag : Byte) (n : Nat) (status : Status) (words : List Word) (s : State) : State :=
  { s with
    scratch := .rest
    port := { s.port with
      miso := List.replicate (4 + 4 * n) 0
      answer := some (tag, .ok)
      progress := none
      reply := some { tag := tag, code := code, status := status, words := words } } }

/-- A supervisor command of `n` argument words taken and handed to its owner: in progress, with a PENDING reply (R196, R198). -/
def State.inProgress (code : Nat) (tag : Byte) (n : Nat) (s : State) : State :=
  { s with
    scratch := .rest
    port := { s.port with
      miso := List.replicate (4 + 4 * n) 0
      answer := some (tag, .ok)
      progress := some (code, tag)
      reply := some { tag := tag, code := code, status := .pending, words := [] } } }

/-- The last reply is that of this command, and none is in progress (R198). -/
def State.hasReply (s : State) (code : Nat) (tag : Byte) (status : Status) (words : List Word) : Prop :=
  s.port.progress = none ∧ s.port.reply = some { tag := tag, code := code, status := status, words := words }

/-- Both sides are DOWN under a roster that is not empty: the ISOLATED condition but for the run state (R91). -/
def State.cutOff (s : State) : Prop := s.ring.west.state = .down ∧ s.ring.east.state = .down ∧ s.items.roster ≠ 0

/-- Station j stands at its miss limit: the next boundary makes it SILENT (R143). -/
def State.atMissLimit (s : State) (j : Station) : Prop :=
  (s.peer j).state = .active ∧ s.items.missLimit < min 255 ((s.peer j).cycles + 1)

/-- Nothing at the next boundary sends a request (R57, R58, R91, R143): a word within its range has arrived, or the servo is not
ready; a side is not DOWN, or there is no roster; and no station stands at its miss limit. -/
def State.calm (s : State) : Prop :=
  (s.servo.ready = false ∨ (0 < s.items.staleLimit ∧ s.servo.fresh = true ∧ inFeedbackRange s.items (s.servo.latest.getD 0) = true)) ∧
  ¬ s.cutOff ∧ ∀ j, ¬ s.atMissLimit j

/-- Station j fails the countdown check (R77). -/
def State.failsCheck (s : State) (j : Station) : Prop :=
  (s.peer j).expected = true ∧ (s.peer j).shares = true ∧
    ((s.peer j).state ≠ .active ∨ (earlier (s.peer j).last.cycle (s.run.adoption + 2) = false ∧
      (s.peer j).last.runState ≠ 4 ∧ (s.peer j).last.runState ≠ 5))

/-- An order that, taken alone at the next boundary, no act of that boundary can make applicable (R118): a PAUSE ramp that ends at it
may still bring PAUSED, so a RESUME counts here neither in PAUSED nor in PAUSING. -/
def State.outOfPlace (s : State) (o : Order) : Prop :=
  match o.kind with
  | .start => s.run.state ≠ .countdown ∨ s.run.countdown ≠ some { epoch := o.epoch, origin := o.origin }
  | .pause => s.run.state ≠ .run
  | .resume => s.run.state ≠ .paused ∧ s.run.state ≠ .pausing
  | .level => s.run.state ≠ .run ∧ s.run.state ≠ .pausing ∧ s.run.state ≠ .paused

/-- From s to t one output value has been computed from the sum x and presented (R16 to R19), with the limited flags and the clip and
slew counters. With residual carry off the residual is written 0 (log 25). -/
def State.computed (s : State) (x : Int) (t : State) : Prop :=
  ∀ s1 s2 v : Int, s1 = clamp x (s.items.cmdMin * 256) (s.items.cmdMax * 256) →
    s2 = clamp s1 (s.drive.prev - s.items.slewMax) (s.drive.prev + s.items.slewMax) →
    v = (if s.items.carry then s2 + s.drive.residual else s2) →
    t.drive.prev = s2 ∧ t.drive.code = (v + 128) / 256 ∧ t.drive.strobes = s.drive.strobes + 1 ∧
    t.drive.residual = (if s.items.carry then v - 256 * ((v + 128) / 256) else 0) ∧
    (t.drive.clipFlag = true ↔ s1 ≠ x) ∧ (t.drive.slewFlag = true ↔ s2 ≠ s1) ∧
    t.counter .clip = (if s1 = x then s.counter .clip else min 4294967295 (s.counter .clip + 1)) ∧
    t.counter .slew = (if s2 = s1 then s.counter .slew else min 4294967295 (s.counter .slew + 1))

/-- An unsigned configuration item: its number, its least and its largest value, and the items with it written (R200). -/
abbrev UnsignedItem := Nat × Nat × Nat × (Items → Nat → Items)

/-- A signed configuration item (R200). -/
abbrev SignedItem := Nat × Int × Int × (Items → Int → Items)

/-- The unsigned items of the table of R200. -/
def unsignedItems : List UnsignedItem :=
  [(1, 0, 16, fun c v => { c with station := v }), (2, 0, 65535, fun c v => { c with roster := BitVec.ofNat 16 v }),
    (3, 0, 255, fun c v => { c with domain := BitVec.ofNat 8 v }), (4, 0, 2, fun c v => { c with rate := Fin.ofNat 3 v }),
    (5, 4096, 61440, fun c v => { c with outputPhase := v }), (6, 0, 3, fun c v => { c with lag := v }),
    (7, 0, 4095, fun c v => { c with laneDelayA := v }), (8, 0, 4095, fun c v => { c with laneDelayB := v }),
    (15, 0, 1, fun c v => { c with carry := decide (v = 1) }), (16, 1, 32768, fun c v => { c with stopStep := v }),
    (17, 1, 15, fun c v => { c with missLimit := v }), (18, 0, 15, fun c v => { c with holdLimit := v }),
    (19, 256, 32767, fun c v => { c with stepLimit := v }), (20, 1, 15, fun c v => { c with staleLimit := v }),
    (21, 0, 127, fun c v => { c with trimMax := v }), (22, 16, 4096, fun c v => { c with minLead := v }),
    (23, 1, 255, fun c v => { c with pulseCycles := v }), (24, 1, 65535, fun c v => { c with pauseLength := v })]

/-- The signed items of the table of R200. -/
def signedItems : List SignedItem :=
  [(9, -32768, 32767, fun c v => { c with cmdMin := v }), (10, -32768, 32767, fun c v => { c with cmdMax := v }),
    (11, -8388608, 8388607, fun c v => { c with bias := v }), (12, 1, 8388607, fun c v => { c with slewMax := v }),
    (13, -8388608, 8388607, fun c v => { c with fbMin := v }), (14, -8388608, 8388607, fun c v => { c with fbMax := v })]

/-- The marker slot items of the table of R200. -/
def slotItems : List (Nat × (Items → MarkerSlot → Items)) :=
  [(25, fun c m => { c with slot0 := m }), (26, fun c m => { c with slot1 := m }), (27, fun c m => { c with slot2 := m }),
    (28, fun c m => { c with slot3 := m })]

/-- The action of a marker slot by its word (R200). -/
def actionWords : List (Nat × MarkerAction) := [(1, .pulse), (2, .pause), (3, .note)]

/-- The state with other configuration items. -/
def State.withItems (s : State) (c : Items) : State := { s with port := { s.port with items := c } }

/-- P, residual, presented code and strobes are the same: nothing was computed and nothing presented (R19, R20). -/
def Drive.sameOutput (d e : Drive) : Prop :=
  d.prev = e.prev ∧ d.residual = e.residual ∧ d.code = e.code ∧ d.strobes = e.strobes

/-- The order that a command originates in state s (R99, R102): normalised, with the next epoch and MinLead cycles of lead. -/
def State.orderMade (s : State) (k : OrderKind) (a b : Nat) : Order :=
  { kind := k, epoch := s.orders.highest + 1, origin := s.items.station, domain := s.items.domain,
    effective := s.time.cycle + BitVec.ofNat 32 s.items.minLead, a := if a = 0 then 1 else a,
    b := match k with | .start => min 32768 b | .level => min 32768 b | .pause => 0 | .resume => 0 }

end Sys2Proof.Machine
end

