-- ==== Sys2Proof/Certificates/Slice0/Obligations.lean ====
section
/-! DEFINITION. The statements about the model for the provers, family by family. Each names the rules of spec/ that it rests on; a
clause that rests on a choice of the model names the log entry. -/

open Sys2Proof Sys2Proof.Machine

/-! ### The machine -/

/-- A step takes the command at the front of the queue and runs it with the queue's rest. -/
def Obligations.StepRunsFrontCommand : Prop :=
  ∀ (c : Instr) (s : State) (rest : List Instr),
    s.pending = c :: rest → step s = exec c { s with pending := rest }

/-- Every command answers a next state, leaves the queue as it stands and the model's scratch at rest (log 4). That outside the running
part nothing but the part's own four commands changes anything is the model's reading: of a part in reset it is DEDUCED from R68 (log
33), and of a part without supply, which R65 only says drives nothing, it is a DESIGN CHOICE (log 18). -/
def Obligations.EveryCommandCompletes : Prop :=
  ∀ (c : Instr) (s : State), ∃ t, exec c s = .next t ∧ t.pending = s.pending ∧ (s.scratch = .rest → t.scratch = .rest) ∧
    (s.cond ≠ .running → c ≠ .powerOnReset → c ≠ .resetRelease → c ≠ .resetNodeEnd → c ≠ .powerLoss → t = s)

/-- POWER_ON_RESET sets every block to its reset value; the drive store keeps its words, but for a write chunk under way, each of
whose words is the old one or the new one (R28, R68). RESET_RELEASE then leaves the part running with all else as reset left it.
Which words of a cut chunk are new is free (log 6). -/
def Obligations.PowerOnResetKeepsOnlyTheStore : Prop :=
  ∀ (s : State), s.store.wf → ∃ (m : Words) (n : Nat) (t : State),
    t = { State.reset with cond := .inReset, store := m, cuts := n, pending := s.pending } ∧
    exec .powerOnReset s = .next t ∧ exec .resetRelease t = .next { t with cond := .running } ∧ m.wf ∧
    ((∀ first ws, ¬ (s.arb.serving = some .supervisor ∧ s.arb.chunk = some (.write first ws))) → m = s.store) ∧
    (∀ first ws, s.arb.serving = some .supervisor → s.arb.chunk = some (.write first ws) →
      ∀ a, m.read a = s.store.read a ∨
        (first ≤ a ∧ a < first + ws.length ∧ m.read a = ws.getD (a - first) 0))

/-- RESET NODE replies OK and stays in progress with the reset pending (R209); the reset sets every block to its reset value but
the drive store, and ends in the running part. The times of 100 µs and 4 µs stand as 5000 and 200 reference edges (log 10). -/
def Obligations.ResetNodeResetsAllButTheStore : Prop :=
  (∀ (s : State) (tag : Byte), s.takesCommands →
    exec (.resetNode tag []) s = .next { s with
      scratch := .rest
      port := { s.port with
        miso := [0, 0, 0, 0]
        answer := some (tag, .ok)
        progress := some (20, tag)
        reply := some { tag := tag, code := 20, status := .ok, words := [] }
        resetPending := some (.waiting 5000) } }) ∧
  (∀ (s : State), s.cond = .running → s.port.resetPending ≠ none →
    exec .resetNodeTakesEffect s = .next
      { State.reset with cond := .nodeReset 200, store := s.store, cuts := s.cuts, pending := s.pending }) ∧
  (∀ (s : State) (e : Nat), s.cond = .nodeReset e → exec .resetNodeEnd s = .next { s with cond := .running })

/-- The output lines (R63 to R68): unpowered after POWER_LOSS, in both kinds of reset, and of the running part. That POWER_LOSS changes
the condition alone and lets every other field stand, the store included, and that the undriven MARK reads as not high, is the model's
choice (log 18): R65 says only that the unpowered part drives nothing. -/
def Obligations.OutputLinesInEveryCondition : Prop :=
  (∀ (s : State), exec .powerLoss s = .next { s with cond := .unpowered }) ∧
  (∀ (s : State), s.cond = .unpowered →
    s.commandLines = none ∧ s.tripNHigh = true ∧ s.markHigh = false ∧ s.attnNHigh = true ∧ ∀ d, s.laneWordSent d = none) ∧
  (∀ (s : State), (s.cond = .inReset ∨ ∃ e, s.cond = .nodeReset e) →
    s.commandLines = some 0 ∧ s.tripNHigh = false ∧ s.markHigh = false ∧ s.attnNHigh = true ∧
      ∀ d, s.laneWordSent d = none) ∧
  (∀ (s : State), s.cond = .running →
    s.commandLines = some (BitVec.ofInt 16 s.drive.code) ∧ s.tripNHigh = !s.run.trip ∧ s.markHigh = s.sched.mark ∧
      s.attnNHigh = s.port.events.isEmpty)

/-- The model's clock (log 9): on an empty queue one reference edge passes, which adds K to the accumulator and runs the down holds
on, when it brings neither a boundary nor an output instant nor the end of a timer. -/
def Obligations.EmptyQueueStepIsOneClockEdge : Prop :=
  ∀ (s : State), s.pending = [] → s.cond = .running → s.scratch = .rest → s.port.resetPending = none →
    s.ring.west.hold ≠ 1 → s.ring.east.hold ≠ 1 → s.time.acc.toNat + s.increment < 4294967296 →
    (s.time.mark = true ∨ (s.time.acc.toNat + s.increment) / 65536 < s.items.outputPhase) →
    step s = .next { s with
      time := { s.time with acc := BitVec.ofNat 32 (s.time.acc.toNat + s.increment) }
      ring := { s.ring with
        west := { s.ring.west with hold := s.ring.west.hold - 1 }
        east := { s.ring.east with hold := s.ring.east.hold - 1 } } }

/-! ### The cycle boundary -/

/-- A CYCLE_BOUNDARY raises the cycle count by one, clears the output mark, latches the feedback (R55), and leaves the accumulator
below K after a whole number of edges (R121); it computes no code and touches neither store, items, filter nor waiting copies. The
command runs the accumulator to the edge that carries, and where the output instant of the cycle is still to come (R123) it takes
that instant on the way, which is the two commands one after the other (log 9). Each row that names an outcome of a boundary
or of an instant is that boundary or instant, or, where the outcome does not come about, has no effect (log 2). -/
def Obligations.BoundaryOpensACycle : Prop :=
  (∀ (s : State) (first : List BoundaryAction), s.cond = .running → s.time.mark = true → -127 ≤ s.time.trim →
    s.time.trim ≤ 127 →
    ∃ t, exec (.cycleBoundary first) s = .next t ∧
      t.time.cycle = s.time.cycle + 1 ∧ t.time.mark = false ∧ t.time.rate = s.time.rate ∧
      (∃ n, 1 ≤ n ∧ s.time.acc.toNat + n * s.increment = 4294967296 + t.time.acc.toNat ∧ t.time.acc.toNat < s.increment) ∧
      t.servo = (if s.servo.fresh then
          { s.servo with feedback := s.servo.latest.getD 0, stale := false, staleRun := 0, fresh := false }
        else { s.servo with stale := true, staleRun := min 255 (s.servo.staleRun + 1), fresh := false }) ∧
      t.drive.sameOutput s.drive ∧ t.drive.held = s.drive.held ∧ t.drive.active = s.drive.active ∧
      t.store = s.store ∧ t.port.items = s.port.items ∧ t.filter = s.filter ∧ t.waiting = s.waiting) ∧
  (∀ (s : State) (first : List BoundaryAction), s.cond = .running → s.time.mark = false →
    ∃ u t, exec (.outputInstant []) s = .next u ∧ u.cond = .running ∧ u.time.mark = true ∧
      exec (.cycleBoundary first) u = .next t ∧ exec (.cycleBoundary first) s = .next t) ∧
  (∀ (s : State) (first : List BoundaryAction) (reports : List InstantReport) (j : Station) (l : Lane), s.scratch = .rest →
    ∃ t u, exec (.cycleBoundary first) s = .next t ∧
      (∀ i ∈ [Instr.feedbackLoss first, .rampEndReport first, .assemblyComplete first, .peerSilent first j, .ringOpen first l,
        .markerPulseEnd first], exec i s = .next t ∨ exec i s = .next s) ∧
      exec (.outputInstant reports) s = .next u ∧ (exec (.peerLate reports j) s = .next u ∨ exec (.peerLate reports j) s = .next s))

/-- FEEDBACK_LOSS (R57, R85, R20): with the servo ready, a boundary without a new sample that brings the stale run to StaleLimit
trips the node, whatever the order of the boundary's acts, and the output is frozen. The row itself is that boundary (log 2), in
any order of its acts (log 3), of a cycle whose output instant has been taken (one still to come goes first, log 9). -/
def Obligations.FeedbackLossTrips : Prop :=
  ∀ (s : State) (first : List BoundaryAction), s.cond = .running → s.time.mark = true → s.run.state ≠ .offline →
    s.run.state ≠ .tripped → s.servo.ready = true → s.servo.fresh = false → s.items.staleLimit ≤ min 255 (s.servo.staleRun + 1) →
    ∃ t, exec (.feedbackLoss first) s = .next t ∧ exec (.cycleBoundary first) s = .next t ∧
      t.run.state = .tripped ∧ t.run.trip = true ∧ t.run.record ≠ none ∧ t.run.stopField ≠ none ∧ t.sched.hold = true ∧
      t.drive.levelRamp = none ∧ t.drive.runRamp = none ∧ t.drive.sameOutput s.drive

/-- RAMP_END_REPORT (R24, R25, R79, R80): the step of the STOP descent that brings R to 0 takes the node from STOPPING to STOPPED at
that boundary, in any order of its acts, when nothing trips it: a new sample within its range has arrived, and a side is not DOWN or
the roster is empty. The last step of a PAUSE ramp takes a calm node from PAUSING to PAUSED in the same way, with no order due. The row
itself is that boundary (log 2), of a cycle whose output instant has been taken (one still to come goes first, log 9), and the order of
acts is the command's (log 3). -/
def Obligations.DescentEndStops : Prop :=
  (∀ (s : State) (first : List BoundaryAction), s.cond = .running → s.time.mark = true → s.run.state = .stopping →
    s.drive.runRamp = some .descent → s.drive.ramp ≤ s.items.stopStep → 0 < s.items.staleLimit → s.servo.fresh = true →
    s.items.fbMin ≤ s.servo.latest.getD 0 → s.servo.latest.getD 0 ≤ s.items.fbMax → ¬ s.cutOff →
    ∃ t, exec (.rampEndReport first) s = .next t ∧ exec (.cycleBoundary first) s = .next t ∧
      t.run.state = .stopped ∧ t.drive.ramp = 0 ∧ t.drive.runRamp = none ∧ t.run.trip = s.run.trip ∧
      t.run.stopField = s.run.stopField ∧ t.drive.sameOutput s.drive) ∧
  (∀ (s : State) (first : List BoundaryAction) (r : Ramp), s.cond = .running → s.time.mark = true → s.run.state = .pausing →
    s.drive.runRamp = some (.ramp r) → r.target = 0 → r.length = r.step + 1 → s.calm →
    (∀ o ∈ s.orders.pending, later o.effective (s.time.cycle + 1) = true) →
    ∃ t, exec (.rampEndReport first) s = .next t ∧ exec (.cycleBoundary first) s = .next t ∧
      t.run.state = .paused ∧ t.drive.ramp = 0 ∧ t.drive.runRamp = none ∧ t.run.trip = s.run.trip ∧
      t.run.stopField = s.run.stopField ∧ t.sched.queue = s.sched.queue ∧ t.sched.head = s.sched.head ∧
      t.drive.sameOutput s.drive)

/-- ASSEMBLY_COMPLETE (R73, R97): the 16th boundary in ASSEMBLY with a complete roster enters STANDBY and deasserts the trip line.
The row itself is that boundary (log 2), in any order of its acts (log 3). -/
def Obligations.AssemblyCompletes : Prop :=
  ∀ (s : State) (first : List BoundaryAction), s.cond = .running → s.run.state = .assembly → s.run.assembly = 15 →
    s.rosterComplete = true → s.servo.ready = false → (∀ j, ¬ s.atMissLimit j) →
    ∃ t, exec (.assemblyComplete first) s = .next t ∧ exec (.cycleBoundary first) s = .next t ∧
      t.run.state = .standby ∧ t.run.assembly = 16 ∧ t.run.trip = false

/-- PEER_SILENT (R143, R155): an ACTIVE station at its miss limit becomes SILENT at the boundary, keeps the rest of its entry, and
as a group peer takes a node in RUN, PAUSING or PAUSED out of them. The row itself is that boundary (log 2), in any order of its
acts (log 3), of a cycle whose output instant has been taken (one still to come goes first, log 9). -/
def Obligations.MissedPeerGoesSilent : Prop :=
  ∀ (s : State) (first : List BoundaryAction) (j : Station), s.cond = .running → s.time.mark = true →
    s.run.state ≠ .offline → s.atMissLimit j →
    ∃ t, exec (.peerSilent first j) s = .next t ∧ exec (.cycleBoundary first) s = .next t ∧
      t.peer j = { s.peer j with state := .silent, cycles := min 255 ((s.peer j).cycles + 1) } ∧
      ((s.peer j).expected = true → (s.peer j).shares = true →
        (s.run.state = .run ∨ s.run.state = .pausing ∨ s.run.state = .paused) →
        t.run.state = .stopping ∨ t.run.state = .stopped ∨ t.run.state = .tripped)

/-- RING_OPEN and MARKER_PULSE_END (R182, R51): the fourth boundary without a return opens a closed lane; the marker pulse count
falls by one at each boundary of a cycle whose output instant has been taken (one still to come goes first, log 9), and the line
with its end. Each row itself is that boundary (log 2), in any order of its acts (log 3). -/
def Obligations.LaneOpensAndPulseEnds : Prop :=
  (∀ (s : State) (first : List BoundaryAction) (l : Lane), s.cond = .running → s.run.state ≠ .offline →
    (s.lane l).returned = false → 3 ≤ (s.lane l).misses → (s.lane l).closed = true →
    ∃ t, exec (.ringOpen first l) s = .next t ∧ exec (.cycleBoundary first) s = .next t ∧
      (t.lane l).closed = false ∧ (t.lane l).misses = 4 ∧ (t.lane l).returned = false ∧
      (t.lane l).roundTrip = (s.lane l).roundTrip ∧ (t.lane l).sending = (s.lane l).sending) ∧
  (∀ (s : State) (first : List BoundaryAction), s.cond = .running → s.time.mark = true →
    ∃ t, exec (.cycleBoundary first) s = .next t ∧ t.sched.pulse = s.sched.pulse - 1 ∧
      t.sched.mark = (if s.sched.pulse = 1 then false else s.sched.mark) ∧
      (s.sched.pulse = 1 → exec (.markerPulseEnd first) s = .next t))

/-- The own frame (R186, R188, R189): at each boundary of an online node it stands at the head of the queue of a lane whose side is
UP, ahead of the forwarded frames, which keep their order, and carries the new cycle count and the latched feedback. It takes the
place of an own frame still waiting (log 12), whatever the order of the boundary's acts (log 3). The output instant of the cycle has
been taken; one still to come goes first (log 9). -/
def Obligations.OwnFrameHeadsTheQueue : Prop :=
  ∀ (s : State) (first : List BoundaryAction) (l : Lane), s.cond = .running → s.time.mark = true → s.run.state ≠ .offline →
    (s.side l.outSide).state = .up →
    ∃ t f, exec (.cycleBoundary first) s = .next t ∧
      (t.lane l).queue = .own f :: ((s.lane l).queue.filter Queued.isForwarded).take 15 ∧
      f.source = BitVec.ofNat 8 s.items.station ∧ f.profile = BitVec.ofNat 8 (16 + s.time.rate.val) ∧ f.hops = 15 ∧
      f.cycle = s.time.cycle + 1 ∧ f.domain = s.items.domain ∧ f.highest = s.orders.highest ∧
      f.feedback = BitVec.ofInt 24 (if s.servo.fresh then s.servo.latest.getD 0 else s.servo.feedback) ∧
      f.flags = (if s.servo.fresh then 0 else 1)

/-! ### The output instant -/

/-- In ASSEMBLY, STANDBY, READY, COUNTDOWN and STOPPED an output instant presents the limited and rounded bias, with the limited flags
and their counters, and does nothing else (R5, R15 to R19); in OFFLINE and TRIPPED it computes and presents nothing (R19, R20); a
cycle has one instant (R123). With residual carry off the residual is written 0 (log 25). -/
def Obligations.InstantAtRestPresentsTheBias : Prop :=
  ∀ (s : State) (first : List InstantReport), s.cond = .running →
    (s.time.mark = true → exec (.outputInstant first) s = .next { s with scratch := .rest }) ∧
    (s.time.mark = false → s.drive.apply = .none → s.run.state.playing = false → s.run.state ≠ .paused →
      ∃ t, exec (.outputInstant first) s = .next t ∧ t.time.mark = true ∧ t.time.cycle = s.time.cycle ∧
        t.run = s.run ∧ t.sched = s.sched ∧ t.arb = s.arb ∧ t.orders = s.orders ∧ t.peers = s.peers ∧ t.servo = s.servo ∧
        t.store = s.store ∧ t.port.events = s.port.events ∧
        (s.run.state = .offline ∨ s.run.state = .tripped → t.drive = s.drive ∧ t.port.counters = s.port.counters) ∧
        (s.run.state ≠ .offline → s.run.state ≠ .tripped → s.computed s.items.bias t ∧
          t.drive.level = s.drive.level ∧ t.drive.ramp = s.drive.ramp ∧ t.drive.levelRamp = s.drive.levelRamp ∧
          t.drive.runRamp = s.drive.runRamp ∧ t.drive.held = s.drive.held ∧ t.drive.active = s.drive.active ∧
          t.drive.pendingBank = s.drive.pendingBank ∧ t.drive.apply = s.drive.apply ∧ t.drive.runStart = s.drive.runStart))

/-- Consumption (R42 to R46): an output instant in RUN, PAUSING or STOPPING with a head moves the position on by one sample, with
the records, the replay index, the FIFO, the debt and the held sample; the last position of the last entry ends the schedule,
which in RUN and PAUSING stops the node with R as it stood, and so does an underrun. The debt stops at its largest value (log 20).
Markers (R50 to R52, R103): the slots are evaluated at an offset-0 position in RUN, the state at the instant (log 31); a PULSE asserts
the line and sets the count, a PAUSE originates its order or is dropped, a NOTE does no more than its event. -/
def Obligations.InstantConsumesOnePosition : Prop :=
  (∀ (s : State) (first : List InstantReport) (e : Entry) (rest : List Entry) (p : HeadPos), s.cond = .running →
    s.time.mark = false → s.run.state.playing = true → s.sched.queue = e :: rest → s.sched.head = some p →
    ∃ t, exec (.outputInstant first) s = .next t ∧ t.time.mark = true ∧
      t.sched.replay = s.sched.next ∧ t.sched.next = s.sched.next + 1 ∧
      t.sched.current = some { tag := BitVec.ofNat 16 e.tag, rep := BitVec.ofNat 16 p.rep } ∧
      t.sched.previous = s.sched.current ∧ t.sched.fifo = s.sched.fifo.tail ∧
      t.sched.debt = (if s.sched.fifo = [] then min 4294967295 (s.sched.debt + 1) else s.sched.debt) ∧
      t.drive.held = (match s.sched.fifo with | [] => s.drive.held | x :: _ => x.toInt) ∧
      (p.offset + 1 < e.length →
        t.sched.queue = e :: rest ∧ t.sched.head = some { p with offset := p.offset + 1 }) ∧
      (e.length ≤ p.offset + 1 → p.rep < e.repeats →
        t.sched.queue = e :: rest ∧ t.sched.head = some { p with rep := p.rep + 1, offset := 0 }) ∧
      (e.length ≤ p.offset + 1 → e.repeats ≤ p.rep →
        t.sched.queue = rest ∧
        t.sched.head = (if rest = [] then none else some { rep := 1, offset := 0, start := s.sched.next + 1 })) ∧
      (e.length ≤ p.offset + 1 → e.repeats ≤ p.rep → rest = [] → s.run.state ≠ .stopping →
        t.run.state = .stopping ∧ t.drive.runRamp = some .descent ∧ t.drive.ramp = s.drive.ramp) ∧
      t.counter .underrun =
        (if s.sched.fifo = [] then min 4294967295 (s.counter .underrun + 1) else s.counter .underrun) ∧
      (s.sched.fifo = [] → s.run.state ≠ .stopping → t.run.state = .stopping) ∧
      (s.run.state ≠ .run ∨ p.offset ≠ 0 →
        t.orders = s.orders ∧ t.sched.mark = s.sched.mark ∧ t.sched.pulse = s.sched.pulse) ∧
      (s.run.state = .run → p.offset = 0 → ∀ r : PosRecord,
        r = { tag := BitVec.ofNat 16 e.tag, rep := BitVec.ofNat 16 p.rep } → ∀ slots : List MarkerSlot,
        slots = [s.items.slot0, s.items.slot1, s.items.slot2, s.items.slot3] →
        ((∃ m ∈ slots, m.hits r = true ∧ m.action = .pulse) →
          t.sched.mark = true ∧ t.sched.pulse = s.items.pulseCycles) ∧
        ((∀ m ∈ slots, m.hits r = true → m.action ≠ .pulse) →
          t.sched.mark = s.sched.mark ∧ t.sched.pulse = s.sched.pulse) ∧
        ((∃ m ∈ slots, m.hits r = true ∧ m.action = .pause) → s.orders.carried = none → s.orders.pending.length < 4 →
          ∀ o, o = s.orderMade .pause s.items.pauseLength 0 →
          t.orders = { s.orders with
            pending := insertOrder o s.orders.pending, highest := s.orders.highest + 1, carried := some o.epoch } ∧
          t.counter .ordersOriginated = min 4294967295 (s.counter .ordersOriginated + 1)) ∧
        ((∀ m ∈ slots, m.hits r = true → m.action ≠ .pause) ∨ s.orders.carried ≠ none ∨ 4 ≤ s.orders.pending.length →
          t.orders = s.orders ∧ t.counter .ordersOriginated = s.counter .ordersOriginated))) ∧
  (∀ (m : MarkerSlot) (r : PosRecord), m.hits r = true ↔ m.enable = true ∧
    (∀ i, i < 16 → m.tagMask.getLsbD i = false → r.tag.getLsbD i = m.keyTag.getLsbD i) ∧
    (∀ i, i < 16 → m.repeatMask.getLsbD i = false → r.rep.getLsbD i = m.keyRepeat.getLsbD i)) ∧
  (∀ (s : State) (r : PosRecord) (k : Nat) (m : MarkerSlot),
    s.items.slots.filter (fun x => x.2.hits r) = [(k, m)] → s.port.events.length ≤ 30 → ∀ v : Event,
    v = { kind := .marker, cycle := s.time.cycle, detail1 := BitVec.ofNat 32 k,
          detail2 := BitVec.ofNat 32 (r.tag.toNat * 65536 + r.rep.toNat) } →
    (s.evaluateMarkers r).port.events = s.port.events ++
      (if m.action = .pause ∧ (s.orders.carried ≠ none ∨ 4 ≤ s.orders.pending.length) then
        [v, { v with kind := .markerPauseDropped }] else [v]))

/-- The drive value (R5, R7 to R9, R14 to R19, R46, R47): what an output instant computes and presents, with the limited flags and
the clip and slew counters. In RUN, PAUSING or STOPPING with a head, it computes from the sample (the held one on underrun), gain,
envelope, L, R, the coupling sum for the target index, and the bias; without a head, and in PAUSED at the held index, from the
coupling sum and the bias alone. The envelope is that of the shape copy inside a fade and 32768 outside. -/
def Obligations.InstantComputesTheDriveValue : Prop :=
  (∀ (s : State) (first : List InstantReport) (e : Entry) (rest : List Entry) (p : HeadPos), s.cond = .running →
    s.time.mark = false → s.run.state.playing = true → s.sched.queue = e :: rest → s.sched.head = some p →
    s.drive.apply = .none →
    ∃ t, exec (.outputInstant first) s = .next t ∧ t.drive.level = s.drive.level ∧ t.drive.ramp = s.drive.ramp ∧
      t.drive.active = s.drive.active ∧
      ∀ d b : Int, ∀ m1 m : Nat,
        d = (match s.sched.fifo with | [] => s.drive.held | y :: _ => y.toInt) →
        m1 = (envelope s.sched.shapes e p.rep p.offset * s.drive.level + 16384) / 32768 →
        m = (m1 * s.drive.ramp + 16384) / 32768 →
        b = (d * e.gain * m + 2097152) / 4194304 →
        s.computed
          (b + s.couplingSum (max (s.sched.next.toNat - s.items.lag) s.drive.runStart.toNat) + s.items.bias) t) ∧
  (∀ (s : State) (first : List InstantReport), s.cond = .running → s.time.mark = false → s.run.state.playing = true →
    s.sched.head = none → s.drive.apply = .none →
    ∃ t, exec (.outputInstant first) s = .next t ∧ t.sched = s.sched ∧ t.orders = s.orders ∧
      t.drive.level = s.drive.level ∧ t.drive.ramp = s.drive.ramp ∧ t.drive.active = s.drive.active ∧
      t.drive.held = s.drive.held ∧ t.counter .underrun = s.counter .underrun ∧
      (s.run.state = .stopping → t.run = s.run) ∧
      s.computed (s.couplingSum (max (s.sched.replay.toNat - s.items.lag) s.drive.runStart.toNat) + s.items.bias) t) ∧
  (∀ (s : State) (first : List InstantReport), s.cond = .running → s.time.mark = false → s.run.state = .paused →
    s.drive.apply = .none →
    ∃ t, exec (.outputInstant first) s = .next t ∧ t.sched = s.sched ∧ t.orders = s.orders ∧
      t.drive.level = s.drive.level ∧ t.drive.ramp = s.drive.ramp ∧ t.drive.active = s.drive.active ∧
      t.drive.held = s.drive.held ∧ t.counter .underrun = s.counter .underrun ∧
      s.computed (s.couplingSum s.sched.replay.toNat + s.items.bias) t) ∧
  (∀ (shapes : Words) (e : Entry) (r i : Nat), e.inRanges → 1 ≤ r → r ≤ e.repeats → i < e.length →
    (r = 1 → i < e.fadeIn → i * 256 / e.fadeIn ≤ 255 ∧
      envelope shapes e r i = min 32768 (shapes.read (e.shape * 256 + i * 256 / e.fadeIn)).toNat) ∧
    (r = e.repeats → e.length - e.fadeOut ≤ i → (e.length - 1 - i) * 256 / e.fadeOut ≤ 255 ∧
      envelope shapes e r i = min 32768 (shapes.read (e.shape * 256 + (e.length - 1 - i) * 256 / e.fadeOut)).toNat) ∧
    (¬ (r = 1 ∧ i < e.fadeIn) → ¬ (r = e.repeats ∧ e.length - e.fadeOut ≤ i) → envelope shapes e r i = 32768))

/-- PEER_LATE (R9 to R12, R83): in PAUSED, a coupled station whose record at the held index is missing or stale, and whose hold
run passes HoldLimit with this instant, stops the node. The row itself is that instant (log 2), in any order of its reports (log
3). -/
def Obligations.LatePeerStopsAPausedNode : Prop :=
  ∀ (s : State) (first : List InstantReport) (j : Station), s.cond = .running → s.time.mark = false →
    s.run.state = .paused → s.drive.apply = .none → stationNumber j ≠ s.items.station → s.drive.active.get j ≠ 0 →
    ((s.peer j).state = .active ∨ (s.peer j).state = .silent) → (s.peer j).window ≠ [] →
    (∀ x ∈ (s.peer j).window, x.index = s.sched.replay → x.stale = true) →
    s.items.holdLimit < min 255 ((s.peer j).holdRun + 1) →
    ∃ t, exec (.peerLate first j) s = .next t ∧ exec (.outputInstant first) s = .next t ∧
      (t.peer j).holdRun = min 255 ((s.peer j).holdRun + 1) ∧ t.run.state = .stopping ∧
      t.run.stopField = some { origin := s.items.station, reason := 4 } ∧ t.drive.runRamp = some .descent ∧
      t.drive.ramp = s.drive.ramp ∧ t.sched = s.sched ∧ t.store = s.store

/-! ### The arithmetic of the drive unit -/

/-- R7: the combined factor m in two roundings, half up, with the ranges of its products and results. -/
def Obligations.CombinedFactorLaw : Prop :=
  ∀ e l r : Nat, e ≤ 32768 → l ≤ 32768 → r ≤ 32768 → ∀ m1, m1 = (e * l + 16384) / 32768 →
    combinedFactor e l r = (m1 * r + 16384) / 32768 ∧ e * l ≤ 1073741824 ∧ m1 * r ≤ 1073741824 ∧ m1 ≤ 32768 ∧
    combinedFactor e l r ≤ 32768 ∧ (combinedFactor e l r = 32768 ↔ e = 32768 ∧ l = 32768 ∧ r = 32768) ∧
    (e = 0 ∨ l = 0 ∨ r = 0 → combinedFactor e l r = 0) ∧
    (∀ k, e * l = 32768 * k + 16384 → m1 = k + 1) ∧
    (∀ k, m1 * r = 32768 * k + 16384 → combinedFactor e l r = k + 1)

/-- R8: the base term b, rounded half up, with the range of its product and of its result, and both ends; it is 0 where no sample is
consumed: in every state but RUN, PAUSING and STOPPING, and without a head. -/
def Obligations.BaseTermLaw : Prop :=
  (∀ (d : Int) (g m : Nat), -32768 ≤ d → d ≤ 32767 → g ≤ 65535 → m ≤ 32768 →
    baseTerm d g m = (d * g * m + 2 ^ 21) / 2 ^ 22 ∧
    -70367670435840 ≤ d * g * m ∧ d * g * m ≤ 70365522984960 ∧ -(2 ^ 47) ≤ d * g * m ∧ d * g * m < 2 ^ 47 ∧
    -16776960 ≤ baseTerm d g m ∧ baseTerm d g m ≤ 16776448) ∧
  baseTerm (-32768) 65535 32768 = -16776960 ∧ baseTerm 32767 65535 32768 = 16776448 ∧
  (∀ s : State, (s.run.state ≠ .run ∧ s.run.state ≠ .pausing ∧ s.run.state ≠ .stopping) ∨ s.sched.head = none →
    s.consume.2 = none ∧ s.drive.base s.consume.2 = 0)

/-- R11: the feedback chosen from a window in rising index, and the hold run after it. -/
def Obligations.ChosenFeedbackLaw : Prop :=
  ∀ (w : List WindowRecord) (t run : Nat), w.Pairwise (fun x y => x.index.toNat < y.index.toNat) →
    (∀ x ∈ w, x.index.toNat = t → x.stale = false →
      chooseFeedback w t = some (x.feedback, false) ∧ nextHoldRun run false = 0) ∧
    (∀ x ∈ w, x.index.toNat = t → x.stale = true →
      chooseFeedback w t = some (x.feedback, true) ∧ nextHoldRun run true = min 255 (run + 1)) ∧
    (∀ x ∈ w, (∀ y ∈ w, y.index.toNat ≠ t) → x.index.toNat < t →
      (∀ y ∈ w, y.index.toNat < t → y.index.toNat ≤ x.index.toNat) →
      chooseFeedback w t = some (x.feedback, true) ∧ nextHoldRun run true = min 255 (run + 1)) ∧
    (∀ x ∈ w, (∀ y ∈ w, t < y.index.toNat) → (∀ y ∈ w, y.index.toNat ≤ x.index.toNat) →
      chooseFeedback w t = some (x.feedback, true) ∧ nextHoldRun run true = min 255 (run + 1)) ∧
    (chooseFeedback w t = none ↔ w = [])

/-- R14: the term of a station with its bound, and the coupling sum: the sum of the terms, 0 when no station qualifies, and bounded
by 15 terms, as the own station is excluded. -/
def Obligations.CouplingSumLaw : Prop :=
  (∀ c f : Int, inSigned16 c → -8388608 ≤ f → f ≤ 8388607 →
    couplingTerm c f = (c * f + 16384) / 32768 ∧ -274877906944 ≤ c * f ∧ c * f ≤ 274877906944 ∧
    -8388608 ≤ couplingTerm c f ∧ couplingTerm c f ≤ 8388608) ∧
  (∀ (s : State) (t : Nat), s.couplingSum t = ∑ j : Station, ((s.termOf t j).map (·.1)).getD 0) ∧
  (∀ (s : State) (t : Nat), (∀ j : Station, s.couples j = false ∨ (s.peer j).window = []) → s.couplingSum t = 0) ∧
  (∀ (s : State) (t : Nat), 1 ≤ s.items.station → s.items.station ≤ 16 → (∀ j : Station, inSigned16 (s.drive.active.get j)) →
    (∀ j : Station, feedbackSound (s.peer j).window) →
    -125829120 ≤ s.couplingSum t ∧ s.couplingSum t ≤ 125829120)

/-- The limits (R16 to R19): one computation moves P by SlewMax at the most and keeps P, the residual and the code in their
ranges; and with residual carry the codes of k computations of one unlimited sum add up to it but for less than one count (R18).
With residual carry off the residual is written 0 (log 25). -/
def Obligations.ComputationKeepsItsLimits : Prop :=
  (∀ (c : Items) (d : Drive) (x : Int), c.inRanges → c.cmdMin < c.cmdMax → c.cmdMin * 256 ≤ d.prev → d.prev ≤ c.cmdMax * 256 →
    -128 ≤ d.residual → d.residual ≤ 127 → ∀ e, e = d.compute c x →
    c.cmdMin * 256 ≤ e.prev ∧ e.prev ≤ c.cmdMax * 256 ∧ d.prev - c.slewMax ≤ e.prev ∧ e.prev ≤ d.prev + c.slewMax ∧
    -128 ≤ e.residual ∧ e.residual ≤ 127 ∧ c.cmdMin ≤ e.code ∧ e.code ≤ c.cmdMax ∧ (c.carry = false → e.residual = 0)) ∧
  (∀ (c : Items) (d : Drive) (x : Int) (k : Nat), c.inRanges → c.carry = true →
    clamp x (c.cmdMin * 256) (c.cmdMax * 256) = d.prev →
    256 * (∑ i ∈ Finset.range k, ((Drive.compute c x)^[i + 1] d).code) =
      k * d.prev + d.residual - ((Drive.compute c x)^[k] d).residual)

/-- R22: the values of a ramp, its end at the target, and its stepping as the L descriptor. -/
def Obligations.RampReachesItsTarget : Prop :=
  (∀ r : Ramp, r.start ≤ 32768 → r.target ≤ 32768 → 1 ≤ r.length → ∀ k, k ≤ r.length →
    (r.value k : Int) = r.start + (2 * ((r.target : Int) - r.start) * k + r.length) / (2 * r.length) ∧
    min r.start r.target ≤ r.value k ∧ r.value k ≤ max r.start r.target ∧ r.value r.length = r.target) ∧
  (∀ (d : Drive) (r : Ramp), d.levelRamp = some r → r.step = 0 → r.start ≤ 32768 → r.target ≤ 32768 →
    (∀ k, 1 ≤ k → k < r.length →
      Drive.stepLevel^[k] d = { d with level := r.value k, levelRamp := some { r with step := k } }) ∧
    (1 ≤ r.length → Drive.stepLevel^[r.length] d = { d with level := r.target, levelRamp := none }))

/-! ### The servo side -/

/-- FEEDBACK_WORD (R54, R68): exactly 24 bits, most significant first, become the latest sample and set the new flag; any other number
is counted as bad framing; a word whose FB_FRM rose before the end of reset is discarded without being counted. -/
def Obligations.FeedbackWordIsReceived : Prop :=
  (∀ (s : State) (x : BitVec 24), s.cond = .running →
    exec (.feedbackWord false ((List.range 24).map (fun k => x.getMsbD k))) s = .next { s with
      scratch := .rest
      servo := { s.servo with latest := some x.toInt, fresh := true, receiveCount := 24 } }) ∧
  (∀ (s : State) (bits : List Bool), s.cond = .running → bits.length ≠ 24 →
    exec (.feedbackWord false bits) s = .next { s.bump .feedbackFraming with
      scratch := .rest
      servo := { s.servo with receiveCount := min 255 bits.length } }) ∧
  (∀ (s : State) (bits : List Bool), exec (.feedbackWord true bits) s = .next s)

/-- SERVO_READY (R60 to R62, R204): no change at the level held; every change posts SERVO_READY, ahead of the events that follow from
it (log 13), which a full event queue drops and counts; an assertion sets the stale run to 0; a loss in motion trips the node with its
output frozen; a loss in READY returns it to STANDBY; a loss in OFFLINE, ASSEMBLY, STANDBY, STOPPED and TRIPPED makes no request. -/
def Obligations.ServoReadyIsTaken : Prop :=
  (∀ (s : State) (level : Bool), s.cond = .running → s.servo.ready = level →
    exec (.servoReady level) s = .next { s with scratch := .rest }) ∧
  (∀ (s : State) (level : Bool), s.cond = .running → s.servo.ready ≠ level →
    ∃ t more, exec (.servoReady level) s = .next t ∧
      (s.port.events.length < 32 → t.port.events = s.port.events ++
        [{ kind := .servoReady, cycle := s.time.cycle, detail1 := if level then 1 else 0, detail2 := s.time.cycle }] ++ more) ∧
      (32 ≤ s.port.events.length → t.port.events = s.port.events ∧
        min 4294967295 (s.counter .eventOverflow + 1) ≤ t.counter .eventOverflow)) ∧
  (∀ (s : State), s.cond = .running → s.servo.ready = false →
    ∃ t, exec (.servoReady true) s = .next t ∧ t.servo = { s.servo with ready := true, staleRun := 0 } ∧
      t.drive = s.drive ∧ t.sched = s.sched ∧ t.orders = s.orders ∧ t.peers = s.peers ∧
      (s.run.state ≠ .standby → s.run.state ≠ .ready → t.run = s.run ∧
        (s.port.events.length < 32 → t.port.events = s.port.events ++
          [{ kind := .servoReady, cycle := s.time.cycle, detail1 := 1, detail2 := s.time.cycle }]) ∧
        (32 ≤ s.port.events.length → t.port.events = s.port.events ∧
          t.counter .eventOverflow = min 4294967295 (s.counter .eventOverflow + 1)))) ∧
  (∀ (s : State), s.cond = .running → s.servo.ready = true →
    (s.run.state = .countdown ∨ s.run.state = .run ∨ s.run.state = .pausing ∨ s.run.state = .paused ∨
      s.run.state = .stopping) →
    ∃ t, exec (.servoReady false) s = .next t ∧ t.servo = { s.servo with ready := false } ∧ t.run.state = .tripped ∧
      t.run.trip = true ∧ t.run.stopField = some { origin := s.items.station, reason := 14 } ∧ t.run.record ≠ none ∧
      t.drive.sameOutput s.drive ∧ t.drive.level = s.drive.level ∧ t.drive.ramp = s.drive.ramp ∧
      t.drive.levelRamp = none ∧ t.drive.runRamp = none) ∧
  (∀ (s : State), s.cond = .running → s.servo.ready = true → s.run.state = .ready → s.rosterComplete = true →
    ∃ t, exec (.servoReady false) s = .next t ∧ t.servo = { s.servo with ready := false } ∧ t.run.state = .standby ∧
      t.run.trip = false ∧ t.drive = s.drive ∧ t.sched = s.sched ∧ t.orders = s.orders) ∧
  (∀ (s : State), s.cond = .running → s.servo.ready = true →
    (s.run.state = .offline ∨ s.run.state = .assembly ∨ s.run.state = .standby ∨ s.run.state = .stopped ∨
      s.run.state = .tripped) →
    ∃ t, exec (.servoReady false) s = .next t ∧ t.servo = { s.servo with ready := false } ∧ t.run = s.run ∧
      t.drive = s.drive ∧ t.sched = s.sched ∧ t.orders = s.orders ∧ t.peers = s.peers ∧
      (s.port.events.length < 32 → t.port.events = s.port.events ++
        [{ kind := .servoReady, cycle := s.time.cycle, detail1 := 0, detail2 := s.time.cycle }]))

/-! ### Stop requests, STOP and CLEAR -/

/-- What becomes of a stop request (R82 to R87, R92 to R94), by its class and the run state in which it is taken, with the record that
is latched when none is held and the counter of the stops taken. That the further count rises before the request is handled is a
reading (log 37). -/
def Obligations.StopRequestTable : Prop :=
  ∀ (q : StopRequest) (s t : State), s.scratch = .rest → t = s.request q →
    (s.run.state = .offline → t = s) ∧
    (q.cause.isT = true → s.run.state ≠ .offline → s.run.state ≠ .tripped →
      t.run.state = .tripped ∧ t.run.trip = true ∧ t.run.stopField = some { origin := q.origin, reason := q.reason } ∧
      t.sched.hold = true ∧ t.drive = { s.drive with levelRamp := none, runRamp := none }) ∧
    (q.cause.isT = true → s.run.state = .tripped →
      t.run.state = .tripped ∧ t.run.stopField = s.run.stopField ∧ t.drive = s.drive ∧ t.sched = s.sched ∧
      t.counter .stopsCounted = min 4294967295 (s.counter .stopsCounted + 1)) ∧
    (q.cause.isT = false → (s.run.state = .run ∨ s.run.state = .pausing ∨ s.run.state = .paused) →
      t.run.state = .stopping ∧ t.run.trip = s.run.trip ∧
      t.run.stopField = some { origin := q.origin, reason := q.reason } ∧
      t.drive = { s.drive with runRamp := some .descent } ∧ t.sched = s.sched) ∧
    (q.cause.isT = false → s.run.state = .countdown →
      (t.run.state = .ready ∨ t.run.state = .standby ∨ t.run.state = .assembly) ∧ t.run.countdown = none ∧
      t.run.stopField = s.run.stopField ∧ t.drive = s.drive ∧ t.sched = s.sched ∧ t.orders = s.orders) ∧
    (q.cause.isT = false →
      (s.run.state = .assembly ∨ s.run.state = .standby ∨ s.run.state = .ready ∨ s.run.state = .tripped) →
      t.run.state = s.run.state ∧ t.run.stopField = s.run.stopField ∧ t.drive = s.drive ∧ t.sched = s.sched ∧
      t.counter .stopsNoted = min 4294967295 (s.counter .stopsNoted + 1)) ∧
    (q.cause.isT = false → (s.run.state = .stopping ∨ s.run.state = .stopped) →
      t.run.state = s.run.state ∧ t.run.stopField = s.run.stopField ∧ t.drive = s.drive ∧ t.sched = s.sched ∧
      t.counter .stopsCounted = min 4294967295 (s.counter .stopsCounted + 1)) ∧
    (∀ r, s.run.record = some r → s.run.state ≠ .offline →
      t.run.record = some { r with
        further := min 255 (r.further + 1)
        escalated := r.escalated || (q.cause.isT && decide (s.run.state = .stopping)) }) ∧
    ((q.cause.isT = true ∧ s.run.state ≠ .offline ∧ s.run.state ≠ .tripped) ∨
      (q.cause.isT = false ∧
        (s.run.state = .countdown ∨ s.run.state = .run ∨ s.run.state = .pausing ∨ s.run.state = .paused)) →
      t.counter .stopsTaken = min 4294967295 (s.counter .stopsTaken + 1) ∧
      t.counter .stopsCounted = s.counter .stopsCounted ∧ t.counter .stopsNoted = s.counter .stopsNoted) ∧
    (s.run.record = none → s.run.state = .countdown → q.cause.isT = false → t.run.record = none) ∧
    (s.run.record = none →
      ((q.cause.isT = true ∧ s.run.state ≠ .offline ∧ s.run.state ≠ .tripped ∧ s.run.state ≠ .stopping) ∨
        (q.cause.isT = false ∧ (s.run.state = .run ∨ s.run.state = .pausing ∨ s.run.state = .paused))) →
      t.run.record = some {
        cause := q.cause.code, reason := q.reason, origin := q.origin, classT := q.cause.isT, concerned := q.concerned
        state := s.run.state, cycle := s.time.cycle, replay := s.sched.replay
        tag := (s.sched.current.map (·.tag)).getD 0, rep := (s.sched.current.map (·.rep)).getD 0
        escalated := false, further := 0 })

/-- STOP (R89) and CLEAR (R95, R96, R61, R21): what each does in each run state. A STOP with which another event falls together is
answered OK when it was taken in COUNTDOWN, RUN, PAUSING or PAUSED, and its request is taken, counted or noted in the state that the
event left (R88, R89); the event is taken whole before it, and not with a STOP that is turned away (log 39). -/
def Obligations.StopAndClear : Prop :=
  ∀ (s : State) (tag : Byte), s.takesCommands →
    ((s.run.state = .run ∨ s.run.state = .pausing ∨ s.run.state = .paused) →
      ∃ t, exec (.stop tag { words := [], ahead := none }) s = .next t ∧ t.hasReply 15 tag .ok [] ∧ t.run.state = .stopping ∧
        t.run.stopField = some { origin := s.items.station, reason := 1 } ∧
        t.drive = { s.drive with runRamp := some .descent } ∧ t.sched = s.sched ∧ t.orders = s.orders) ∧
    (s.run.state = .countdown →
      ∃ t, exec (.stop tag { words := [], ahead := none }) s = .next t ∧ t.hasReply 15 tag .ok [] ∧ t.run.countdown = none ∧
        (t.run.state = .ready ∨ t.run.state = .standby ∨ t.run.state = .assembly) ∧
        t.run.stopField = s.run.stopField ∧ t.drive = s.drive ∧ t.orders = s.orders) ∧
    (s.run.state ∉ [RunState.countdown, .run, .pausing, .paused] →
      ∀ ahead, exec (.stop tag { words := [], ahead := ahead }) s = .next (s.replied 15 tag 0 .refusedState [])) ∧
    ((s.run.state = .countdown ∨ s.run.state = .run ∨ s.run.state = .pausing ∨ s.run.state = .paused) →
      (∀ (e : Together) (u : State), u = (s.inProgress 15 tag 0).happens e →
        ∃ t, exec (.stop tag { words := [], ahead := some e }) s = .next t ∧ t.hasReply 15 tag .ok [] ∧
          (u.run.state = .stopping ∨ u.run.state = .stopped →
            t.run.state = u.run.state ∧ t.run.stopField = u.run.stopField ∧ t.drive = u.drive ∧ t.sched = u.sched ∧
            t.counter .stopsCounted = min 4294967295 (u.counter .stopsCounted + 1)) ∧
          (u.run.state = .assembly ∨ u.run.state = .standby ∨ u.run.state = .ready ∨ u.run.state = .tripped →
            t.run.state = u.run.state ∧ t.run.stopField = u.run.stopField ∧ t.drive = u.drive ∧ t.sched = u.sched ∧
            t.counter .stopsNoted = min 4294967295 (u.counter .stopsNoted + 1)) ∧
          (u.run.state = .countdown → t.run.countdown = none ∧ t.run.state ≠ .countdown) ∧
          (u.run.state = .run ∨ u.run.state = .pausing ∨ u.run.state = .paused →
            (t.run.state = .stopping ∨ t.run.state = .stopped) ∧
            t.run.stopField = some { origin := u.items.station, reason := 1 })) ∧
      (s.servo.ready = true →
        ∃ t, exec (.stop tag { words := [], ahead := some (.servoReady false) }) s = .next t ∧ t.hasReply 15 tag .ok [] ∧
          t.run.state = .tripped ∧ t.run.trip = true ∧
          t.run.stopField = some { origin := s.items.station, reason := 14 } ∧
          t.counter .stopsNoted = min 4294967295 (s.counter .stopsNoted + 1))) ∧
    (s.run.state = .stopped →
      ∃ t, exec (.clear tag []) s = .next t ∧ t.hasReply 16 tag .ok [] ∧ t.run.stopField = none ∧ t.run.record = none ∧
        t.drive = s.drive ∧ t.sched = s.sched ∧
        (s.rosterComplete = true → (t.run.state = .standby ∨ t.run.state = .ready) ∧ t.run.trip = false) ∧
        (s.rosterComplete = false → t.run.state = .assembly ∧ t.run.assembly = 0 ∧ t.run.trip = s.run.trip)) ∧
    (s.run.state = .tripped → s.servo.ready = true → s.items.fbMin ≤ s.servo.latest.getD 0 →
      s.servo.latest.getD 0 ≤ s.items.fbMax →
      ∃ t, exec (.clear tag []) s = .next t ∧ t.hasReply 16 tag .ok [] ∧ t.run.stopField = none ∧ t.run.record = none ∧
        t.drive = { s.drive with ramp := 0 } ∧ t.sched.hold = false ∧ t.sched.queue = s.sched.queue ∧
        t.sched.head = s.sched.head ∧
        (s.rosterComplete = true → (t.run.state = .standby ∨ t.run.state = .ready) ∧ t.run.trip = false) ∧
        (s.rosterComplete = false → t.run.state = .assembly ∧ t.run.assembly = 0 ∧ t.run.trip = s.run.trip)) ∧
    (s.run.state = .tripped →
      (s.servo.ready = false ∨ s.servo.latest.getD 0 < s.items.fbMin ∨ s.items.fbMax < s.servo.latest.getD 0) →
      exec (.clear tag []) s = .next (s.replied 16 tag 0 .refusedCondition [])) ∧
    (s.run.state ≠ .stopped → s.run.state ≠ .tripped →
      exec (.clear tag []) s = .next (s.replied 16 tag 0 .refusedState []))

/-! ### Group orders -/

/-- START, PAUSE, RESUME and SET_LEVEL (R101, R102, R76): each originates its order in its run states, which becomes the carried one,
and replies its epoch and effective cycle; a START also enters COUNTDOWN with every window empty. With an order carried or four
pending it is answered BUSY. -/
def Obligations.CommandsOriginateOrders : Prop :=
  ∀ (s : State) (tag : Byte) (a b : Word), s.takesCommands → a.toNat ≤ 65535 → b.toNat ≤ 65535 →
    (s.orders.carried = none → s.orders.pending.length < 4 →
      (∀ (i : Instr) (o : Order) (code : Nat),
        (s.run.state = .ready ∧ code = 11 ∧ i = .start tag [a, b] ∧ o = s.orderMade .start a.toNat b.toNat) ∨
        (s.run.state = .run ∧ code = 12 ∧ i = .pause tag [a] ∧ o = s.orderMade .pause a.toNat 0) ∨
        (s.run.state = .paused ∧ code = 13 ∧ i = .resume tag [a] ∧ o = s.orderMade .resume a.toNat 0) ∨
        ((s.run.state = .run ∨ s.run.state = .pausing ∨ s.run.state = .paused) ∧ code = 14 ∧ i = .setLevel tag [a, b] ∧
          o = s.orderMade .level a.toNat b.toNat) →
        ∃ t, exec i s = .next t ∧ t.hasReply code tag .ok [BitVec.ofNat 32 o.epoch.toNat, o.effective] ∧
          t.orders = { s.orders with
            pending := insertOrder o s.orders.pending, highest := s.orders.highest + 1, carried := some o.epoch } ∧
          t.counter .ordersOriginated = min 4294967295 (s.counter .ordersOriginated + 1) ∧
          t.drive = s.drive ∧ t.sched = s.sched ∧
          (o.kind = .start → t.run.state = .countdown ∧ t.run.adoption = s.time.cycle ∧
            t.run.countdown = some { epoch := o.epoch, origin := o.origin } ∧
            ∀ j, t.peer j = { s.peer j with window := [], holdRun := 0 }) ∧
          (o.kind ≠ .start → t.run = s.run ∧ t.peers = s.peers))) ∧
    ((s.orders.carried ≠ none ∨ 4 ≤ s.orders.pending.length) →
      (s.run.state = .ready → exec (.start tag [a, b]) s = .next (s.replied 11 tag 2 .busy [])) ∧
      (s.run.state = .run → exec (.pause tag [a]) s = .next (s.replied 12 tag 1 .busy [])) ∧
      (s.run.state = .paused → exec (.resume tag [a]) s = .next (s.replied 13 tag 1 .busy [])) ∧
      (s.run.state = .run ∨ s.run.state = .pausing ∨ s.run.state = .paused →
        exec (.setLevel tag [a, b]) s = .next (s.replied 14 tag 2 .busy [])))

/-- The eight adoption steps (R107 to R109, R111) for the order of an accepted frame of station j: ignored at steps 1 to 3; at step 4
the list entry of the epoch from a higher origin is displaced; ORDER_SKEW at step 5 and step 6, ORDER_OVERFLOW at step 7; inserted at
step 8, where a START at equal position fields takes a READY node into COUNTDOWN. The list holds an epoch once (R111). -/
def Obligations.AdoptionSteps : Prop :=
  ∀ (f : Frame) (j : Station) (o : Order) (s t : State), t = s.adopt f j o →
    (o.domain &&& s.items.domain = 0 → t = s) ∧
    ((∃ x ∈ s.orders.pending, x.epoch = o.epoch ∧ x.origin = o.origin) → t = s) ∧
    ((∃ x ∈ s.orders.history, x.epoch = o.epoch ∧ x.origin ≤ o.origin) → t = s) ∧
    ((∃ x ∈ s.orders.pending, x.epoch = o.epoch ∧ x.origin < o.origin) → t = s) ∧
    (o.domain &&& s.items.domain ≠ 0 → (∀ x ∈ s.orders.pending, x.epoch ≠ o.epoch) →
      (∃ x ∈ s.orders.history, x.epoch = o.epoch) →
      (∀ x ∈ s.orders.history, x.epoch = o.epoch → o.origin < x.origin) →
      t = s.requestLocal .orderSkew (stationNumber j)) ∧
    (o.domain &&& s.items.domain ≠ 0 → (∀ x ∈ s.orders.pending, x.epoch ≠ o.epoch) →
      (∀ x ∈ s.orders.history, x.epoch ≠ o.epoch) →
      (later o.effective s.time.cycle = false → t = s.requestLocal .orderSkew (stationNumber j)) ∧
      (later o.effective s.time.cycle = true → 4 ≤ s.orders.pending.length →
        t = s.requestLocal .orderOverflow (stationNumber j)) ∧
      (later o.effective s.time.cycle = true → s.orders.pending.length < 4 →
        t.orders = { s.orders with pending := insertOrder o s.orders.pending } ∧ t.drive = s.drive ∧ t.sched = s.sched ∧
        t.counter .ordersAdopted = min 4294967295 (s.counter .ordersAdopted + 1) ∧
        (o.kind = .start → s.run.state = .ready → s.positionFields = (f.tag, f.rep, f.replay) →
          t.run.state = .countdown ∧ t.run.countdown = some { epoch := o.epoch, origin := o.origin } ∧
          t.run.adoption = s.time.cycle ∧ ∀ k, t.peer k = { s.peer k with window := [], holdRun := 0 }) ∧
        (o.kind ≠ .start ∨ s.run.state ≠ .ready ∨ s.positionFields ≠ (f.tag, f.rep, f.replay) →
          t.run = s.run ∧ t.peers = s.peers))) ∧
    (∀ e, o.domain &&& s.items.domain ≠ 0 → (∀ x ∈ s.orders.history, x.epoch = o.epoch → o.origin < x.origin) →
      e ∈ s.orders.pending → e.epoch = o.epoch → o.origin < e.origin →
      (∀ x ∈ s.orders.pending, x.epoch = o.epoch → x = e) → s.orders.pending.length ≤ 4 →
      t.orders.history = s.orders.history ∧ t.orders.highest = s.orders.highest ∧
      t.counter .ordersDisplaced = min 4294967295 (s.counter .ordersDisplaced + 1) ∧
      t.orders.carried = (if e.origin = s.items.station ∧ s.orders.carried = some e.epoch then none else s.orders.carried) ∧
      (later o.effective s.time.cycle = true →
        t.orders.pending = insertOrder o (s.orders.pending.erase e) ∧
        t.counter .ordersAdopted = min 4294967295 (s.counter .ordersAdopted + 1)) ∧
      (later o.effective s.time.cycle = false → t.orders.pending = s.orders.pending.erase e ∧
        t = (s.displace e o).requestLocal .orderSkew (stationNumber j)) ∧
      (s.run.state ≠ .countdown → o.kind ≠ .start → later o.effective s.time.cycle = true →
        t.run = s.run ∧ t.drive = s.drive ∧ t.sched = s.sched ∧ t.peers = s.peers))

/-- The application of a due order at a calm boundary (R113 to R117, R22, R23), whatever the order of the boundary's acts: a START
begins the run, a PAUSE and a RESUME ramp R, a LEVEL ramps L, each with its first step at this boundary. An order out of place is
declared inapplicable and changes nothing (R118). A countdown whose check fails is aborted, naming the first station that fails it
(R77, R78). The order of acts is the command's (log 3); the output instant of the cycle has been taken, and one still to come goes
first (log 9). -/
def Obligations.DueOrderIsApplied : Prop :=
  (∀ (s : State) (first : List BoundaryAction) (o : Order), s.cond = .running → s.time.mark = true → s.calm →
    s.orders.pending.filter (fun x => !later x.effective (s.time.cycle + 1)) = [o] →
    (s.run.state = .countdown → o.kind = .start → s.run.countdown = some { epoch := o.epoch, origin := o.origin } →
      s.drive.runRamp = none →
      (∀ j, (s.peer j).expected = true → (s.peer j).shares = true → (s.peer j).state = .active ∧
        (earlier (s.peer j).last.cycle (s.run.adoption + 2) = true ∨ (s.peer j).last.runState = 4 ∨
          (s.peer j).last.runState = 5)) →
      ∃ t, exec (.cycleBoundary first) s = .next t ∧ t.run.state = .run ∧ t.run.countdown = none ∧
        t.orders.pending = s.orders.pending.erase o ∧ t.drive.level = o.b ∧ t.drive.levelRamp = none ∧
        t.drive.runStart = s.sched.replay ∧
        t.drive.ramp = Ramp.value { start := 0, target := 32768, length := o.a, step := 0 } 1 ∧
        t.drive.runRamp = (if o.a ≤ 1 then none
          else some (.ramp { start := 0, target := 32768, length := o.a, step := 1 }))) ∧
    (s.run.state = .run → o.kind = .pause → s.drive.runRamp ≠ some .descent →
      (∀ r, s.drive.runRamp = some (.ramp r) → r.target ≠ 0) →
      ∃ t, exec (.cycleBoundary first) s = .next t ∧ t.orders.pending = s.orders.pending.erase o ∧
        t.drive.ramp = Ramp.value { start := s.drive.ramp, target := 0, length := o.a, step := 0 } 1 ∧
        (t.drive.ramp ≠ 0 → t.run.state = .pausing) ∧ (o.a = 1 → t.run.state = .paused ∧ t.drive.ramp = 0)) ∧
    (s.run.state = .paused → o.kind = .resume → s.drive.runRamp = none →
      ∃ t, exec (.cycleBoundary first) s = .next t ∧ t.run.state = .run ∧ t.orders.pending = s.orders.pending.erase o ∧
        t.drive.runStart = s.sched.replay ∧
        t.drive.ramp = Ramp.value { start := 0, target := 32768, length := o.a, step := 0 } 1) ∧
    ((s.run.state = .run ∨ s.run.state = .pausing ∨ s.run.state = .paused) → o.kind = .level →
      ∃ t, exec (.cycleBoundary first) s = .next t ∧ t.orders.pending = s.orders.pending.erase o ∧
        t.drive.level = Ramp.value { start := s.drive.level, target := o.b, length := o.a, step := 0 } 1 ∧
        t.drive.levelRamp = (if o.a ≤ 1 then none
          else some { start := s.drive.level, target := o.b, length := o.a, step := 1 }))) ∧
  (∀ (s : State) (first : List BoundaryAction) (o : Order), s.cond = .running → s.time.mark = true →
    s.run.state ≠ .offline → s.orders.pending.filter (fun x => !later x.effective (s.time.cycle + 1)) = [o] →
    s.outOfPlace o →
    ∃ t, exec (.cycleBoundary first) s = .next t ∧
      t.orders = { s.orders with
        pending := s.orders.pending.erase o
        history := (s.orders.history ++ [(⟨o.epoch, o.origin⟩ : OrderId)]).drop (s.orders.history.length + 1 - 8)
        carried := if o.origin = s.items.station ∧ s.orders.carried = some o.epoch then none else s.orders.carried } ∧
      t.counter .ordersInapplicable = min 4294967295 (s.counter .ordersInapplicable + 1) ∧
      t.counter .ordersApplied = s.counter .ordersApplied ∧ t.drive.runStart = s.drive.runStart ∧
      (s.run.state ≠ .run → t.run.state ≠ .run) ∧
      (s.calm → s.drive.levelRamp = none → s.drive.runRamp = none →
        t.drive.level = s.drive.level ∧ t.drive.ramp = s.drive.ramp ∧ t.drive.levelRamp = none ∧ t.drive.runRamp = none)) ∧
  (∀ (s : State) (first : List BoundaryAction) (j : Station), s.cond = .running → s.time.mark = true → s.calm →
    s.run.state = .countdown → s.failsCheck j → (∀ k : Station, k.val < j.val → ¬ s.failsCheck k) →
    ∃ t, exec (.cycleBoundary first) s = .next t ∧ t.run.countdown = none ∧
      (t.run.state = .ready ∨ t.run.state = .standby ∨ t.run.state = .assembly) ∧
      t.counter .countdownAbort = min 4294967295 (s.counter .countdownAbort + 1) ∧
      t.run.stopField = s.run.stopField ∧ t.run.record = s.run.record ∧ t.drive.runStart = s.drive.runStart ∧
      (s.port.events = [] → s.orders.pending.length ≤ 4 →
        ({ kind := .countdownAbort, cycle := s.time.cycle + 1, detail1 := BitVec.ofNat 32 (stationNumber j)
           detail2 := if (s.peer j).state = .active then BitVec.ofNat 32 (s.peer j).last.runState.toNat else 0 } : Event) ∈
          t.port.events))

/-! ### Rig time -/

/-- ARRIVAL_STAMP (R121, R124): the stamp of the frame that begins to arrive is the cycle count and phase that the accumulator has
reached, within the cycle, after the edges given. The edges are the command's operand; edges that would bring an output instant or a
boundary do not pass, since each of those is a step of its own (log 9). -/
def Obligations.ArrivalIsStamped : Prop :=
  ∀ (s : State) (l : Lane) (n : Nat), s.cond = .running → -127 ≤ s.time.trim → s.time.trim ≤ 127 →
    ∃ t m acc, exec (.arrivalStamp l n) s = .next t ∧ m ≤ n ∧ acc = s.time.acc.toNat + m * s.increment ∧
      acc < 4294967296 ∧ (s.time.mark = true ∨ m = 0 ∨ acc / 65536 < s.items.outputPhase) ∧
      (s.time.acc.toNat + n * s.increment < 4294967296 →
        (s.time.mark = true ∨ (s.time.acc.toNat + n * s.increment) / 65536 < s.items.outputPhase) → m = n) ∧
      t.lane l = { s.lane l with receiving := some { cycle := s.time.cycle, phase := acc / 65536 } } ∧
      (∀ k, k ≠ l → t.lane k = s.lane k) ∧ (∀ d, (t.side d).state = (s.side d).state) ∧
      t.time = { s.time with acc := BitVec.ofNat 32 acc } ∧
      t.run = s.run ∧ t.drive = s.drive ∧ t.sched = s.sched ∧ t.store = s.store ∧ t.servo = s.servo ∧
      t.orders = s.orders ∧ t.peers = s.peers ∧ t.filter = s.filter ∧ t.waiting = s.waiting

/-- The offset of a timing-usable frame (R125 to R129, R142): recorded within its limit, with the step run and the entry's state; in
ASSEMBLY a frame more than one cycle ahead first carries the cycle count forward, which makes its distance 0. -/
def Obligations.OffsetIsRecorded : Prop :=
  ∀ (s t : State) (j : Station) (f : Frame) (age : Nat) (stamp : Stamp), t = s.takeTiming j f age stamp →
    (s.timingUsable j age = false → t = s) ∧
    (s.timingUsable j age = true → ∀ D raw : Int, D = (f.cycle - stamp.cycle).toInt →
      raw = (if s.run.state = .assembly ∧ 1 < D then 0 else D) * 65536 + f.sendPhase.toNat + age - stamp.phase →
      (t.peer j).offset = clamp raw (-32767) 32767 ∧ t.time.fresh.get j = true ∧
      t.time.cycle = (if s.run.state = .assembly ∧ 1 < D then s.time.cycle + (f.cycle - stamp.cycle) else s.time.cycle) ∧
      t.time.acc = s.time.acc ∧ t.time.trim = s.time.trim ∧ t.time.mark = s.time.mark ∧
      (clamp raw (-32767) 32767 ≤ s.items.stepLimit → -(s.items.stepLimit : Int) ≤ clamp raw (-32767) 32767 →
        (t.peer j).stepRun = 0 ∧ (t.peer j).state = .active) ∧
      (((s.items.stepLimit : Int) < clamp raw (-32767) 32767 ∨ clamp raw (-32767) 32767 < -(s.items.stepLimit : Int)) →
        (t.peer j).stepRun = (if 8 ≤ (s.peer j).stepRun + 1 then 0 else (s.peer j).stepRun + 1) ∧
        (t.peer j).state = (if 8 ≤ (s.peer j).stepRun + 1 then .listed else (s.peer j).state)) ∧
      ∀ k, k ≠ j → t.peer k = s.peer k)

/-- The trim (R122, R132): from the stations of the fresh set that are LISTED or ACTIVE, the mean of their offsets rounded half up,
an eighth of it rounded half up, within TrimMax; with no such station the trim stands; the fresh set is emptied. -/
def Obligations.TrimFollowsTheMeanOffset : Prop :=
  ∀ (s t : State) (used : List Station), s.run.state ≠ .offline → t = s.computeTrim →
    used = stations.filter (fun j => s.time.fresh.get j &&
      decide ((s.peer j).state = .listed ∨ (s.peer j).state = .active)) →
    t.time.used = used.length ∧ (∀ j : Station, t.time.fresh.get j = false) ∧ t.time.acc = s.time.acc ∧
    t.time.cycle = s.time.cycle ∧ t.run = s.run ∧ t.peers = s.peers ∧
    (used = [] → t.time.trim = s.time.trim ∧ t.time.lastMean = s.time.lastMean) ∧
    (used ≠ [] → ∀ m : Int, m = (2 * (used.map (fun j => (s.peer j).offset)).sum + used.length) / (2 * used.length) →
      t.time.lastMean = m ∧ t.time.trim = clamp ((m + 4) / 8) (-(s.items.trimMax : Int)) s.items.trimMax ∧
      -(s.items.trimMax : Int) ≤ t.time.trim ∧ t.time.trim ≤ s.items.trimMax)

/-! ### Frame acceptance and peer table -/

/-- The copies that the filter discards (R159, R160, R163 to R165), each with its counter and nothing handed on: a source outside
1 to 16, a duplicate, a repeat, a stale copy short of the 16th in a run; without a waiting copy nothing is taken. Which copy is
taken is the command's (log 22). -/
def Obligations.FilterDiscardsCopies : Prop :=
  ∀ (s : State) (n : Nat), s.cond = .running →
    (s.waiting[n]? = none → exec (.deliveryCopyTaken n) s = .next { s with scratch := .rest }) ∧
    (∀ c, s.waiting[n]? = some c → (c.frame.source.toNat = 0 ∨ 16 < c.frame.source.toNat) →
      exec (.deliveryCopyTaken n) s = .next { s.bump .sourceInvalid with
        scratch := .rest, waiting := s.waiting.eraseIdx n }) ∧
    (∀ c j e d, s.waiting[n]? = some c → c.frame.source.toNat = stationNumber j → e = s.filter.get j → e.valid = true →
      d = (c.frame.cycle.setWidth 16 - e.last).toNat →
      (d = 0 → (match c.lane with | .a => e.onA | .b => e.onB) = false →
        exec (.deliveryCopyTaken n) s = .next { s.bump .duplicate with
          scratch := .rest, waiting := s.waiting.eraseIdx n
          filter := put s.filter j (match c.lane with | .a => { e with onA := true } | .b => { e with onB := true }) }) ∧
      (d = 0 → (match c.lane with | .a => e.onA | .b => e.onB) = true →
        exec (.deliveryCopyTaken n) s = .next { s.bump .repeated with
          scratch := .rest, waiting := s.waiting.eraseIdx n }) ∧
      (32768 ≤ d → e.staleRun < 15 →
        exec (.deliveryCopyTaken n) s = .next { s.bump .stale with
          scratch := .rest, waiting := s.waiting.eraseIdx n
          filter := put s.filter j { e with staleRun := e.staleRun + 1 } }))

/-- The copies that the filter accepts (R161, R162, R166, R167): the entry, the other entries, the last frame record (R140), and
what no acceptance touches. RESYNCHRONISATION and PATH_DEGRADED are the takings that bring those about. Each row is the taking
itself (log 2), of the copy named (log 22). An accepted frame of a group peer in RUN or PAUSING whose replay index or tag and repeat
are skewed stops a node in RUN or PAUSING (R152 to R154), and one that carries a stop field stops a node in RUN, PAUSING or PAUSED
(R90). -/
def Obligations.FilterAcceptsCopies : Prop :=
  (∀ (s : State) (n : Nat) (c : Copy) (j : Station) (e : FilterEntry) (d : Nat), s.cond = .running →
    s.waiting[n]? = some c → c.frame.source.toNat = stationNumber j → e = s.filter.get j →
    d = (c.frame.cycle.setWidth 16 - e.last).toNat →
    (e.valid = false ∨ (1 ≤ d ∧ d < 32768) ∨ (32768 ≤ d ∧ 15 ≤ e.staleRun)) →
    ∃ t, exec (.deliveryCopyTaken n) s = .next t ∧
      t.filter = put s.filter j {
        valid := true, last := c.frame.cycle.setWidth 16, onA := decide (c.lane = .a), onB := decide (c.lane = .b)
        staleRun := 0
        singleRun := if e.valid = true ∧ d < 32768 ∧ e.onA ≠ e.onB then min 64 (e.singleRun + 1) else 0 } ∧
      t.waiting.length = s.waiting.length - 1 ∧ (t.peer j).cycles = 0 ∧ (t.peer j).last.cycle = c.frame.cycle ∧
      (t.peer j).last.runState = c.frame.runState ∧ (t.peer j).last.replay = c.frame.replay ∧
      (t.peer j).last.highest = c.frame.highest ∧
      t.store = s.store ∧ t.servo = s.servo ∧ t.port.items = s.port.items ∧ t.time.acc = s.time.acc ∧
      t.time.mark = s.time.mark ∧ t.drive.sameOutput s.drive ∧
      (e.valid = true → 32768 ≤ d → exec (.resynchronisation n) s = .next t ∧
        (t.peer j).restarts = min 65535 ((s.peer j).restarts + 1)) ∧
      (e.valid = true → d < 32768 → e.onA ≠ e.onB → e.singleRun = 63 → exec (.pathDegraded n) s = .next t)) ∧
  (∀ (s : State) (n : Nat) (c : Copy) (j : Station) (d : Nat), s.cond = .running →
    s.waiting[n]? = some c → c.frame.source.toNat = stationNumber j → (s.filter.get j).valid = true →
    d = (c.frame.cycle.setWidth 16 - (s.filter.get j).last).toNat → 1 ≤ d → d < 32768 →
    (s.peer j).expected = true →
    ((s.peer j).state = .listed ∨ (s.peer j).state = .active ∨ (s.peer j).state = .silent) →
    c.frame.profile.toNat / 16 = 1 → c.frame.profile.toNat % 4 = s.time.rate.val → c.frame.domain &&& s.items.domain ≠ 0 →
    (∀ (k i : Int) (r : PosRecord), k = c.frame.replay.toNat → i = s.sched.replay.toNat →
      (c.frame.runState = 5 ∨ c.frame.runState = 6) → (s.run.state = .run ∨ s.run.state = .pausing) →
      r = (if k = i then s.sched.current else s.sched.previous).getD { tag := 0, rep := 0 } →
      ∃ t, exec (.deliveryCopyTaken n) s = .next t ∧
        (1 < k - i ∨ k - i < -1 → t.counter .indexSkew = min 4294967295 (s.counter .indexSkew + 1) ∧
          t.counter .tagSkew = s.counter .tagSkew ∧ t.run.state = .stopping ∧
          t.run.stopField = some { origin := s.items.station, reason := 6 }) ∧
        ((k = i ∨ k = i - 1) → r ≠ { tag := c.frame.tag, rep := c.frame.rep } →
          t.counter .tagSkew = min 4294967295 (s.counter .tagSkew + 1) ∧
          t.counter .indexSkew = s.counter .indexSkew ∧ t.run.state = .stopping ∧
          t.run.stopField = some { origin := s.items.station, reason := 7 }) ∧
        (k = i + 1 ∨ ((k = i ∨ k = i - 1) ∧ r = { tag := c.frame.tag, rep := c.frame.rep }) →
          t.counter .indexSkew = s.counter .indexSkew ∧ t.counter .tagSkew = s.counter .tagSkew)) ∧
    (∀ o r : Nat, o = c.frame.stopOrigin.toNat → r = c.frame.stopReason.toNat → 1 ≤ o → o ≤ 16 → 1 ≤ r → r ≤ 15 →
      (s.run.state = .run ∨ s.run.state = .pausing ∨ s.run.state = .paused) →
      ∃ t, exec (.deliveryCopyTaken n) s = .next t ∧ t.run.state = .stopping ∧ t.run.trip = s.run.trip ∧
        (c.frame.runState ≠ 5 → c.frame.runState ≠ 6 → (s.peer j).stepRun < 7 → c.frame.orderKind = 0 →
          t.run.stopField = some { origin := o, reason := r } ∧
          (s.run.record = none → ∃ x, t.run.record = some x ∧ x.cause = 16 ∧ x.reason = r ∧ x.origin = o ∧
            x.classT = false ∧ x.concerned = stationNumber j ∧ x.state = s.run.state ∧ x.escalated = false ∧
            x.further = 0))))

/-- STEP_LOSS (R127, R142): the 8th newer copy in a row whose offset is beyond StepLimit takes its station from ACTIVE to LISTED.
The row is the taking itself (log 2). -/
def Obligations.StepLossListsThePeer : Prop :=
  ∀ (s : State) (n : Nat) (c : Copy) (j : Station) (d : Nat) (raw : Int), s.cond = .running →
    s.run.state ≠ .assembly → s.waiting[n]? = some c → c.frame.source.toNat = stationNumber j →
    (s.filter.get j).valid = true → d = (c.frame.cycle.setWidth 16 - (s.filter.get j).last).toNat → 1 ≤ d → d < 32768 →
    (s.peer j).expected = true → (s.peer j).state = .active → c.frame.profile.toNat / 16 = 1 →
    c.frame.profile.toNat % 4 = s.time.rate.val → c.age < 65535 → (s.peer j).stepRun = 7 →
    raw = (c.frame.cycle - c.stamp.cycle).toInt * 65536 + c.frame.sendPhase.toNat + c.age - c.stamp.phase →
    ((s.items.stepLimit : Int) < clamp raw (-32767) 32767 ∨ clamp raw (-32767) 32767 < -(s.items.stepLimit : Int)) →
    ∃ t, exec (.stepLoss n) s = .next t ∧ exec (.deliveryCopyTaken n) s = .next t ∧ (t.peer j).state = .listed ∧
      (t.peer j).stepRun = 0 ∧ (t.peer j).offset = clamp raw (-32767) 32767 ∧ t.time.fresh.get j = true

/-- A frame of a station that the roster does not name changes nothing but that station's entries, the highest epoch seen, counters
and events (R90, R106, R125, R139, R148, R152). -/
def Obligations.UnexpectedStationIsPowerless : Prop :=
  ∀ (s : State) (n : Nat) (c : Copy) (j : Station), s.cond = .running → s.waiting[n]? = some c →
    c.frame.source.toNat = stationNumber j → (s.peer j).expected = false →
    ∃ t, exec (.deliveryCopyTaken n) s = .next t ∧ t.run = s.run ∧ t.drive = s.drive ∧ t.sched = s.sched ∧ t.arb = s.arb ∧
      t.store = s.store ∧ t.servo = s.servo ∧ t.time = s.time ∧ t.ring = s.ring ∧
      t.orders.pending = s.orders.pending ∧ t.orders.history = s.orders.history ∧ t.orders.carried = s.orders.carried ∧
      t.waiting = s.waiting.eraseIdx n ∧ t.port.items = s.port.items ∧ t.port.reply = s.port.reply ∧
      (∀ k, k ≠ j → t.peer k = s.peer k ∧ t.filter.get k = s.filter.get k) ∧
      (t.peer j).window = (if (s.filter.get j).valid = true ∧
          32768 ≤ (c.frame.cycle.setWidth 16 - (s.filter.get j).last).toNat ∧ 15 ≤ (s.filter.get j).staleRun
        then [] else (s.peer j).window)

/-- The placing of a record in a peer window (R149): a replacement, an insertion in index order, the oldest removed from a full
window, and a record below a full window's oldest discarded. -/
def Obligations.WindowPlacement : Prop :=
  ∀ (x : WindowRecord) (w : List WindowRecord), windowSound w →
    windowSound (placeRecord x w).1 ∧
    ((∃ y ∈ w, y.index = x.index) → (placeRecord x w).2 = false ∧ (placeRecord x w).1.length = w.length ∧
      ∀ z, z ∈ (placeRecord x w).1 ↔ z = x ∨ (z ∈ w ∧ z.index ≠ x.index)) ∧
    ((∀ y ∈ w, y.index ≠ x.index) → w.length < 8 → (placeRecord x w).2 = false ∧
      ∀ z, z ∈ (placeRecord x w).1 ↔ z = x ∨ z ∈ w) ∧
    (∀ o rest, w = o :: rest → w.length = 8 → (∀ y ∈ w, y.index ≠ x.index) →
      (x.index.toNat < o.index.toNat → placeRecord x w = (w, true)) ∧
      (o.index.toNat < x.index.toNat → (placeRecord x w).2 = false ∧
        ∀ z, z ∈ (placeRecord x w).1 ↔ z = x ∨ z ∈ rest))

/-! ### The rig ring -/

/-- SIGNAL_PRESENT, SIGNAL_LOST and DOWN_HOLD_EXPIRY (R175 to R178, R91): a DOWN side with signal whose hold has run out enters
TRAINING; a side that loses its signal goes DOWN with the hold anew, its queue emptied, which may trip a node in motion. The hold of 10
µs stands as 500 reference edges, and DOWN_HOLD_EXPIRY ends it whatever is left of it (log 10, log 9). -/
def Obligations.SignalMovesTheSide : Prop :=
  ∀ (s : State) (d : Side), s.cond = .running →
    ((s.side d).signal = false →
      ∃ t, exec (.signalPresent d) s = .next t ∧
        t.side d = (if (s.side d).state = .down ∧ (s.side d).hold = 0 then
            { s.side d with signal := true, state := .training, words := 0 }
          else { s.side d with signal := true }) ∧
        (∀ k, k ≠ d → t.side k = s.side k) ∧ (∀ l, t.lane l = s.lane l) ∧ t.run = s.run) ∧
    ((s.side d).state = .down → 0 < (s.side d).hold →
      ∃ t, exec (.downHoldExpiry d) s = .next t ∧
        t.side d = (if (s.side d).signal then { s.side d with hold := 0, state := .training, words := 0 }
          else { s.side d with hold := 0 }) ∧
        (∀ k, k ≠ d → t.side k = s.side k) ∧ (∀ l, t.lane l = s.lane l) ∧ t.run = s.run) ∧
    ((s.side d).signal = true → (s.side d).state ≠ .down →
      ∃ t, exec (.signalLost d) s = .next t ∧
        t.side d = { s.side d with signal := false, state := .down, hold := 500 } ∧
        (∀ k, k ≠ d → t.side k = s.side k) ∧ (t.lane d.receives).receiving = none ∧
        (t.lane d.transmits).queue = (if (s.side d).state = .up then [] else (s.lane d.transmits).queue) ∧
        ((∃ k, k ≠ d ∧ (s.side k).state = .down) → s.items.roster ≠ 0 → s.run.state.inMotion = true →
          t.run.state = .tripped ∧ t.run.trip = true) ∧
        (((∀ k, k ≠ d → (s.side k).state ≠ .down) ∨ s.items.roster = 0 ∨ s.run.state.inMotion = false) → t.run = s.run))

/-- LANE_WORD and SIDE_TRAINED (R174 to R178): the words of a side in TRAINING count up to the 8th clean one, which brings it UP;
an UP side falls back to TRAINING on a remote fault or a wrong profile; DOWN ignores words. SIDE_TRAINED is the 8th clean word
itself (log 2). -/
def Obligations.LaneWordsTrainTheSide : Prop :=
  ∀ (s : State) (d : Side) (profile flags check : Byte) (clean : Bool), s.cond = .running →
    clean = decide (check = ~~~(profile ^^^ flags) ∧ profile.toNat / 16 = 1 ∧ profile.toNat % 4 = s.time.rate.val ∧
      flags.getLsbD 0 = false) →
    ∃ t, exec (.laneWord d profile flags check) s = .next t ∧ (∀ k, k ≠ d → t.side k = s.side k) ∧ t.run = s.run ∧
      ((s.side d).state = .down → t = { s with scratch := .rest }) ∧
      ((s.side d).state = .training → clean = true → (s.side d).words < 7 →
        t.side d = { s.side d with words := (s.side d).words + 1 } ∧ ∀ l, t.lane l = s.lane l) ∧
      ((s.side d).state = .training → clean = true → (s.side d).words = 7 →
        t.side d = { s.side d with words := 8, state := .up, fails := 0 } ∧ exec (.sideTrained d) s = .next t) ∧
      ((s.side d).state = .training → clean = false →
        t.side d = { s.side d with words := 0 } ∧
        t.counter (.wordError d) = (if check = ~~~(profile ^^^ flags) then s.counter (.wordError d)
          else min 4294967295 (s.counter (.wordError d) + 1))) ∧
      ((s.side d).state = .up → (clean = true ∨ check ≠ ~~~(profile ^^^ flags)) →
        t.side d = s.side d ∧ ∀ l, t.lane l = s.lane l) ∧
      ((s.side d).state = .up → clean = false → check = ~~~(profile ^^^ flags) →
        t.side d = { s.side d with state := .training, words := 0 } ∧ (t.lane d.transmits).queue = [])

/-- FRAME_ARRIVAL (R176, R177, R180 to R185) and FRAME_CHECK_DOWN (R178): ignored on a DOWN side, discarded unchecked in TRAINING. On an
UP side a good frame is forwarded with one hop less, or dropped for its hops, for want of a path or for want of room, and from GO
ONLINE on it is delivered with its age and stamp all the same; an own frame closes its lane; a bad frame is counted, and the 8th in a
row takes the side DOWN. The down hold of 10 µs stands as 500 reference edges (log 10). FRAME_CHECK_DOWN is the 8th bad frame itself
(log 2). -/
def Obligations.FrameArrivalIsHandled : Prop :=
  ∀ (s : State) (l : Lane) (f : Frame) (stamp : Stamp), s.cond = .running → (s.lane l).receiving = some stamp →
    ((s.side l.inSide).state = .down → ∀ closed bytes, exec (.frameArrival l closed bytes) s =
      .next ({ s with scratch := .rest }.onLane l (fun x => { x with receiving := none }))) ∧
    ((s.side l.inSide).state = .training → ∀ bytes,
      exec (.frameArrival l true bytes) s =
        .next (({ s with scratch := .rest }.onLane l (fun x => { x with receiving := none })).bump (.notUp l.inSide)) ∧
      exec (.frameArrival l false bytes) s =
        .next ({ s with scratch := .rest }.onLane l (fun x => { x with receiving := none }))) ∧
    ((s.side l.inSide).state = .up → (s.run.state = .offline ∨ f.source.toNat ≠ s.items.station) →
      ∃ t, exec (.frameArrival l true f.wire) s = .next t ∧
        t.side l.inSide = { s.side l.inSide with fails := 0 } ∧ t.side l.outSide = s.side l.outSide ∧
        t.waiting = (if s.run.state = .offline then s.waiting else
          s.waiting ++ [{ frame := f, lane := l, stamp := stamp, age := min 65535 (f.age.toNat +
            match l with | .a => s.items.laneDelayA | .b => s.items.laneDelayB) }]) ∧
        t.run = s.run ∧ t.peers = s.peers ∧ t.filter = s.filter ∧ t.drive = s.drive ∧ t.port.events = s.port.events ∧
        (f.hops ≠ 0 → (s.side l.outSide).state = .up → (s.lane l).queue.length < 16 →
          t.lane l = { s.lane l with
            receiving := none
            queue := (s.lane l).queue ++
              [.forwarded { f with hops := if 15 < f.hops.toNat then 14 else f.hops - 1 } stamp] } ∧
          t.counter (.forwarded l) = min 4294967295 (s.counter (.forwarded l) + 1)) ∧
        (f.hops = 0 → t.lane l = { s.lane l with receiving := none } ∧
          t.counter (.hopExhausted l) = min 4294967295 (s.counter (.hopExhausted l) + 1)) ∧
        (f.hops ≠ 0 → (s.side l.outSide).state ≠ .up → t.lane l = { s.lane l with receiving := none } ∧
          t.counter (.noPath l) = min 4294967295 (s.counter (.noPath l) + 1)) ∧
        (f.hops ≠ 0 → (s.side l.outSide).state = .up → 16 ≤ (s.lane l).queue.length →
          t.lane l = { s.lane l with receiving := none } ∧
          t.counter (.queueFull l) = min 4294967295 (s.counter (.queueFull l) + 1))) ∧
    ((s.side l.inSide).state = .up → s.run.state ≠ .offline → f.source.toNat = s.items.station →
      ∃ t, exec (.frameArrival l true f.wire) s = .next t ∧
        t.lane l = { s.lane l with
          receiving := none, returned := true, misses := 0, closed := true, returnedSeq := f.cycle.setWidth 16
          roundTrip := min 65535 (f.age.toNat +
            match l with | .a => s.items.laneDelayA | .b => s.items.laneDelayB) } ∧
        t.side l.inSide = { s.side l.inSide with fails := 0 } ∧ t.waiting = s.waiting ∧ t.run = s.run) ∧
    (∀ closed bytes, (s.side l.inSide).state = .up → (closed = false ∨ checkFrame bytes = none) →
      ∃ t, exec (.frameArrival l closed bytes) s = .next t ∧ t.waiting = s.waiting ∧ (t.lane l).receiving = none ∧
        ((s.side l.inSide).fails < 7 →
          t.side l.inSide = { s.side l.inSide with fails := (s.side l.inSide).fails + 1 } ∧ t.run = s.run) ∧
        ((s.side l.inSide).fails = 7 →
          t.side l.inSide = { s.side l.inSide with fails := 8, state := .down, hold := 500 } ∧
          (t.lane l.inSide.transmits).queue = [] ∧ exec (.frameCheckDown l.inSide) s = .next t))

/-- The bytes of a frame (R191, R192): a frame that a transmitter sends is read back whole by the receiver's check, and nothing else
passes it. -/
def Obligations.FrameWireRoundTrip : Prop :=
  (∀ f : Frame, f.wire.length = 46 ∧ checkFrame f.wire = some f) ∧
  (∀ (bytes : List Byte) (f : Frame), checkFrame bytes = some f → bytes = f.wire)

/-- TRANSMIT_START and TRANSMISSION_END (R183, R187): at a unit boundary the head of the queue of an UP side is sent, an own frame
with the phase of that moment, a forwarded one with the time it has spent in the node; a lane word is sent instead of no frame.
The edges are the command's operand; edges that would bring an output instant or a boundary do not pass (log 9). -/
def Obligations.TransmitterSendsTheHead : Prop :=
  ∀ (s : State) (l : Lane) (n : Nat), s.cond = .running → -127 ≤ s.time.trim → s.time.trim ≤ 127 →
    (∃ m, m ≤ n ∧ (s.time.acc.toNat + n * s.increment < 4294967296 →
        (s.time.mark = true ∨ (s.time.acc.toNat + n * s.increment) / 65536 < s.items.outputPhase) → m = n) ∧
      ∀ now, now = (s.time.acc.toNat + m * s.increment) / 65536 →
      (∀ q rest, (s.lane l).queue = q :: rest → (s.lane l).sending = none → (s.side l.outSide).state = .up →
        ∃ t g, exec (.transmitStart l n) s = .next t ∧
          t.lane l = { s.lane l with queue := rest, sending := some { frame := g, crc := crc32 g.bytes } } ∧
          (∀ k, k ≠ l → t.lane k = s.lane k) ∧ t.time.cycle = s.time.cycle ∧ t.run = s.run ∧
          (∀ f, q = .own f → g = { f with sendPhase := BitVec.ofNat 16 now }) ∧
          (∀ f stamp, q = .forwarded f stamp → g = { f with age := BitVec.ofInt 16 (min 65535 ((f.age.toNat : Int) +
            (match l with | .a => s.items.laneDelayA | .b => s.items.laneDelayB : Nat) +
            ((s.time.cycle - stamp.cycle).toInt * 65536 + now - stamp.phase))) }))) ∧
    (((s.lane l).queue = [] ∨ (s.lane l).sending ≠ none ∨ (s.side l.outSide).state ≠ .up) →
      ∃ t, exec (.transmitStart l n) s = .next t ∧ (∀ k, t.lane k = s.lane k) ∧ t.run = s.run) ∧
    (∃ t, exec (.transmissionEnd l) s = .next t ∧ t.lane l = { s.lane l with sending := none } ∧
      (∀ k, k ≠ l → t.lane k = s.lane k) ∧ (∀ d, t.side d = s.side d) ∧ t.time = s.time ∧ t.run = s.run)

/-! ### The drive store -/

/-- SAMPLE_BURST_COMPLETION and SHAPE_LOAD_BURST_COMPLETION (R29, R30, R35, R36): the samples repay the debt and fill the FIFO, a void
burst brings none, and a shape enters the shape copy. -/
def Obligations.BurstsComplete : Prop :=
  (∀ (s : State) (first n : Nat), s.cond = .running → s.arb.serving = some .prefetch →
    s.sched.burst = some (.sample first n true) →
    ∃ t, exec .sampleBurstCompletion s = .next t ∧ t.sched.fifo = s.sched.fifo ∧ t.sched.debt = s.sched.debt ∧
      t.sched.reader = s.sched.reader ∧ t.counter .discard = s.counter .discard ∧ t.store = s.store ∧
      t.drive = s.drive) ∧
  (∀ (s : State) (first n : Nat), s.cond = .running → s.arb.serving = some .prefetch →
    s.sched.burst = some (.sample first n false) →
    ∃ t, exec .sampleBurstCompletion s = .next t ∧
      t.sched.fifo = s.sched.fifo ++ ((List.range n).map (fun k => s.store.read (first + k))).drop s.sched.debt ∧
      t.sched.debt = s.sched.debt - n ∧
      t.counter .discard = min 4294967295 (s.counter .discard + min s.sched.debt n) ∧
      (∀ r, s.sched.reader = some r → r.offset + n < r.entry.length →
        t.sched.reader = some { r with offset := r.offset + n }) ∧
      (∀ r, s.sched.reader = some r → r.entry.length ≤ r.offset + n → r.rep < r.entry.repeats →
        t.sched.reader = some { r with rep := r.rep + 1, offset := 0 }) ∧
      (∀ r, s.sched.reader = some r → r.entry.length ≤ r.offset + n → r.entry.repeats ≤ r.rep →
        t.sched.reader = (match r.later with
          | [] => none
          | e :: es => some { entry := e, rep := 1, offset := 0, later := es })) ∧
      t.sched.queue = s.sched.queue ∧ t.sched.head = s.sched.head ∧ t.store = s.store ∧ t.drive = s.drive) ∧
  (∀ (s : State) (k : Nat), s.cond = .running → s.arb.serving = some .prefetch → s.sched.burst = some (.shape k) →
    s.sched.shapes.wf →
    ∃ t, exec .shapeLoadBurstCompletion s = .next t ∧ t.sched.shapeCount = s.sched.shapeCount + 1 ∧
      (∀ a, t.sched.shapes.read a = (if k * 256 ≤ a ∧ a < k * 256 + 256
        then s.store.read (8191 * 4096 + a) else s.sched.shapes.read a)) ∧
      (k < 15 → t.sched.burst = some (.shape (k + 1)) ∧ t.arb.serving = some .prefetch ∧ t.sched.loaded = false) ∧
      (15 ≤ k → t.sched.loaded = true) ∧ t.store = s.store ∧ t.drive = s.drive)

/-- WRITE_PAGE, READ_PAGE and their completions (R30, R31): a transfer within its page places one chunk and stays in progress with a
PENDING reply; its completion writes or reads exactly its words, and replies OK. One beyond its page is INVALID. -/
def Obligations.PagesAreTransferred : Prop :=
  (∀ (s : State) (tag : Byte) (page offset count : Word) (ws : List Word), s.takesCommands →
    ws.length = (count.toNat + 1) / 2 →
    (page.toNat ≤ 8191 → offset.toNat ≤ 4095 → 1 ≤ count.toNat → count.toNat ≤ 256 → offset.toNat + count.toNat ≤ 4096 →
      (∃ t, exec (.writePage tag (page :: offset :: count :: ws)) s = .next t ∧
        t.arb.chunk = some (.write (page.toNat * 4096 + offset.toNat) (unpackSamples count.toNat ws)) ∧
        t.arb.serving = (if s.arb.serving = none then some .supervisor else s.arb.serving) ∧
        t.port.progress = some (4, tag) ∧
        t.port.reply = some { tag := tag, code := 4, status := .pending, words := [] } ∧
        t.store = s.store ∧ t.sched = s.sched ∧ t.run = s.run ∧ t.drive = s.drive) ∧
      (∃ t, exec (.readPage tag [page, offset, count]) s = .next t ∧
        t.arb.chunk = some (.read (page.toNat * 4096 + offset.toNat) count.toNat) ∧
        t.arb.serving = (if s.arb.serving = none then some .supervisor else s.arb.serving) ∧
        t.port.progress = some (5, tag) ∧
        t.port.reply = some { tag := tag, code := 5, status := .pending, words := [] } ∧
        t.store = s.store ∧ t.sched = s.sched ∧ t.run = s.run ∧ t.drive = s.drive)) ∧
    (page.toNat ≤ 8191 → offset.toNat ≤ 4095 → 1 ≤ count.toNat → count.toNat ≤ 256 → 4096 < offset.toNat + count.toNat →
      exec (.writePage tag (page :: offset :: count :: ws)) s = .next (s.replied 4 tag (3 + ws.length) .invalid [3]) ∧
      exec (.readPage tag [page, offset, count]) s = .next (s.replied 5 tag 3 .invalid [3]))) ∧
  (∀ (s : State) (first : Nat) (ws : List Half) (r : Reply), s.cond = .running → s.store.wf →
    s.arb.serving = some .supervisor → s.arb.chunk = some (.write first ws) → s.port.reply = some r →
    ∃ t, exec .writeChunkCompletion s = .next t ∧ t.arb.chunk = none ∧ t.port.progress = none ∧
      t.port.reply = some { r with status := .ok, words := [] } ∧ t.store.wf ∧
      (∀ a, t.store.read a = (if first ≤ a ∧ a < first + ws.length then ws.getD (a - first) 0 else s.store.read a)) ∧
      t.arb.serving = (if s.sched.burst = none then none else some .prefetch) ∧
      t.sched.fifo = s.sched.fifo ∧ t.sched.reader = s.sched.reader ∧ t.sched.queue = s.sched.queue ∧
      (first / 4096 ≠ 8191 ∨ s.run.state = .offline → t.sched = s.sched) ∧ t.drive = s.drive ∧ t.run = s.run) ∧
  (∀ (s : State) (first count : Nat) (r : Reply), s.cond = .running → s.arb.serving = some .supervisor →
    s.arb.chunk = some (.read first count) → s.port.reply = some r →
    ∃ t, exec .readChunkCompletion s = .next t ∧ t.arb.chunk = none ∧ t.port.progress = none ∧
      t.port.reply = some { r with
        status := .ok, words := packSamples ((List.range count).map (fun k => s.store.read (first + k))) } ∧
      t.arb.serving = (if s.sched.burst = none then none else some .prefetch) ∧
      t.store = s.store ∧ t.sched = s.sched ∧ t.drive = s.drive ∧ t.run = s.run)

/-! ### The supervisor port -/

/-- The transactions (R196 to R199): a malformed one is counted, a READ REPLY shifts out the reply and changes nothing else, and a
command that arrives while another is in progress is answered BUSY with no other effect. The zeros on SPI_MISO during a malformed
transaction, one whose first byte is 21 to 255 included, are a reading of R196 (log 26), and that a transaction was under way when
reset ended is an operand of the command (log 28). -/
def Obligations.TransactionsAreAnswered : Prop :=
  (∀ (s : State) (bytes : List Byte), s.cond = .running → malformed bytes = true →
    exec (.malformedTransaction false bytes) s = .next { s.bump .transactionError with
      scratch := .rest
      port := { (s.bump .transactionError).port with
        answer := some (bytes.getD 1 0, .invalid), miso := List.replicate bytes.length 0 } } ∧
    exec (.malformedTransaction true bytes) s = .next { s with scratch := .rest }) ∧
  (∀ (s : State) (k : Nat) (r : Reply) (a : Byte × Status), s.cond = .running → s.port.reply = some r →
    s.port.answer = some a → s.port.resetPending = none → ∀ front, front =
      [a.1, BitVec.ofNat 8 a.2.code, r.tag, BitVec.ofNat 8 r.code, BitVec.ofNat 8 r.status.code,
        BitVec.ofNat 8 r.words.length] ++ r.words.flatMap wordBytes →
    exec (.readReply k) s = .next { s with
      scratch := .rest
      port := { s.port with miso := (front ++ [~~~(front.foldl (· ^^^ ·) 0)] ++ List.replicate k 0).take k } }) ∧
  (∀ (s : State) (i : Instr) (code : Nat) (tag : Byte) (args : List Word) (x : Nat × Byte), s.cond = .running →
    s.port.progress = some x → i.command? = some (code, tag, args) →
    exec i s = .next { s.bump .busyAnswer with
      scratch := .rest
      port := { (s.bump .busyAnswer).port with
        answer := some (tag, .busy), miso := List.replicate (4 + 4 * args.length) 0 } })

/-- The bytes of a command transaction (R196 to R198, R202): every supervisor command with at most 131 argument words is read back
whole from its bytes, which are never malformed. An event that falls together with a STOP is in no byte of it (log 39). -/
def Obligations.TransactionRoundTrip : Prop :=
  (∀ (i : Instr) (code : Nat) (tag : Byte) (args : List Word), i.command? = some (code, tag, args) → args.length ≤ 131 →
    readTransaction (transaction code tag args) =
      some (match i with | .stop t x => .stop t { words := x.words, ahead := none } | k => k) ∧
    malformed (transaction code tag args) = false ∧
    (transaction code tag args).length = 4 + 4 * args.length) ∧
  (∀ (bytes : List Byte) (i : Instr), readTransaction bytes = some i → i.transaction? = some bytes)

/-- GET_STATUS, READ_EVENT and READ_TABLE (R203 to R206): each replies what it reads and changes nothing else, but that READ_EVENT
removes the record read. -/
def Obligations.ReadsReplyTheState : Prop :=
  ∀ (s : State) (tag : Byte), s.takesCommands →
    (exec (.getStatus tag []) s = .next (s.replied 1 tag 0 .ok s.statusWords) ∧ s.statusWords.length = 57 ∧
      s.statusWords[0]? = some (BitVec.ofNat 32 s.run.state.code) ∧
      s.statusWords[7]? = some (BitVec.ofInt 32 s.drive.code) ∧
      s.statusWords[14]? = some (BitVec.ofNat 32 s.sched.fifo.length) ∧ s.statusWords[32]? = some s.time.cycle ∧
      s.statusWords[56]? = some (BitVec.ofNat 32 s.port.events.length)) ∧
    (s.port.events = [] → exec (.readEvent tag []) s = .next (s.replied 17 tag 0 .empty [])) ∧
    (∀ e rest, s.port.events = e :: rest →
      exec (.readEvent tag []) s = .next (({ s with port := { s.port with events := rest } } : State).replied 17 tag 0 .ok
        [BitVec.ofNat 32 e.kind.code, e.cycle, e.detail1, e.detail2, BitVec.ofNat 32 rest.length])) ∧
    (∀ index : Word, index.toNat = 0 → (∀ e rest, s.sched.queue = e :: rest →
        exec (.readTable tag [4, index]) s = .next (s.replied 18 tag 2 .ok
          ([e.tag, e.startPage, e.length, e.repeats, e.gain, e.fadeIn, e.fadeOut, e.shape].map (BitVec.ofNat 32)))) ∧
      (s.sched.queue = [] → exec (.readTable tag [4, index]) s = .next (s.replied 18 tag 2 .empty [])) ∧
      (s.run.record = none → exec (.readTable tag [6, index]) s = .next (s.replied 18 tag 2 .empty []))) ∧
    (∀ (j : Station) (index : Word), index.toNat = stationNumber j →
      exec (.readTable tag [1, index]) s = .next (s.replied 18 tag 2 .ok (s.peer j).fields) ∧
      exec (.readTable tag [2, index]) s = .next (s.replied 18 tag 2 .ok (windowFields (s.peer j).window)) ∧
      exec (.readTable tag [3, index]) s = .next (s.replied 18 tag 2 .ok (s.filter.get j).fields) ∧
      exec (.readTable tag [5, index]) s = .next (s.replied 18 tag 2 .ok
        [BitVec.ofInt 32 (s.drive.active.get j), BitVec.ofInt 32 (s.drive.pendingBank.get j)])) ∧
    (∀ (c : Counter) (index : Word), index.toNat = c.place.val + 1 →
      exec (.readTable tag [7, index]) s = .next (s.replied 18 tag 2 .ok [BitVec.ofNat 32 (s.counter c)])) ∧
    (∀ table index : Word, (table.toNat = 0 ∨ 7 < table.toNat) →
      exec (.readTable tag [table, index]) s = .next (s.replied 18 tag 2 .invalid [1]))

/-- WRITE_CONFIG (R200): in OFFLINE every item 1 to 28 takes a value in its range and is refused one outside it, with the number of
value words that the item has; a wrong number of argument words is refused in every run state, and the rest outside OFFLINE. GO_ONLINE
(R201, R72, R4, R26, R29, R122, R137): the five checks in their order, each naming its item, and what the node is when all pass: in
ASSEMBLY with its first code, rate, roster and shape load. -/
def Obligations.ConfigurationAndGoOnline : Prop :=
  ∀ (s : State) (tag : Byte), s.takesCommands →
    (s.run.state = .offline →
      (∀ item lo hi set, (item, lo, hi, set) ∈ unsignedItems → ∀ v : Word,
        (lo ≤ v.toNat → v.toNat ≤ hi → exec (.writeConfig tag [BitVec.ofNat 32 item, v]) s =
          .next ((s.withItems (set s.items v.toNat)).replied 2 tag 2 .ok [])) ∧
        (v.toNat < lo ∨ hi < v.toNat → exec (.writeConfig tag [BitVec.ofNat 32 item, v]) s =
          .next (s.replied 2 tag 2 .invalid [BitVec.ofNat 32 item]))) ∧
      (∀ item lo hi set, (item, lo, hi, set) ∈ signedItems → ∀ v : Word,
        (lo ≤ v.toInt → v.toInt ≤ hi → exec (.writeConfig tag [BitVec.ofNat 32 item, v]) s =
          .next ((s.withItems (set s.items v.toInt)).replied 2 tag 2 .ok [])) ∧
        (v.toInt < lo ∨ hi < v.toInt → exec (.writeConfig tag [BitVec.ofNat 32 item, v]) s =
          .next (s.replied 2 tag 2 .invalid [BitVec.ofNat 32 item]))) ∧
      (∀ item set, (item, set) ∈ slotItems → ∀ enable action kt tm kr rm : Word,
        (∀ n x, (n, x) ∈ actionWords → action.toNat = n → enable.toNat ≤ 1 → kt.toNat ≤ 65535 → tm.toNat ≤ 65535 →
          kr.toNat ≤ 65535 → rm.toNat ≤ 65535 →
          exec (.writeConfig tag [BitVec.ofNat 32 item, enable, action, kt, tm, kr, rm]) s =
            .next ((s.withItems (set s.items
              { enable := decide (enable.toNat = 1), action := x, keyTag := BitVec.ofNat 16 kt.toNat
                tagMask := BitVec.ofNat 16 tm.toNat, keyRepeat := BitVec.ofNat 16 kr.toNat
                repeatMask := BitVec.ofNat 16 rm.toNat })).replied 2 tag 7 .ok [])) ∧
        ((1 < enable.toNat ∨ action.toNat = 0 ∨ 3 < action.toNat ∨ 65535 < kt.toNat ∨ 65535 < tm.toNat ∨
            65535 < kr.toNat ∨ 65535 < rm.toNat) →
          exec (.writeConfig tag [BitVec.ofNat 32 item, enable, action, kt, tm, kr, rm]) s =
            .next (s.replied 2 tag 7 .invalid [BitVec.ofNat 32 item]))) ∧
      (∀ item : Word, (item.toNat = 0 ∨ 24 < item.toNat) → ∀ v : Word,
        exec (.writeConfig tag [item, v]) s = .next (s.replied 2 tag 2 .invalid [item])) ∧
      (∀ item : Word, (item.toNat < 25 ∨ 28 < item.toNat) → ∀ a b c d e f : Word,
        exec (.writeConfig tag [item, a, b, c, d, e, f]) s = .next (s.replied 2 tag 7 .invalid [item]))) ∧
    (∀ args : List Word, args.length ≠ 2 → args.length ≠ 7 →
      exec (.writeConfig tag args) s = .next (s.replied 2 tag args.length .invalid [0])) ∧
    (s.run.state ≠ .offline → ∀ args : List Word, args.length = 2 ∨ args.length = 7 →
      exec (.writeConfig tag args) s = .next (s.replied 2 tag args.length .refusedState [])) ∧
    (s.run.state ≠ .offline → exec (.goOnline tag []) s = .next (s.replied 3 tag 0 .refusedState [])) ∧
    (s.run.state = .offline → s.items.station = 0 →
      exec (.goOnline tag []) s = .next (s.replied 3 tag 0 .invalid [1])) ∧
    (s.run.state = .offline → ∀ own : Station, s.items.station = stationNumber own →
      (s.items.roster.getLsbD own.val = true → exec (.goOnline tag []) s = .next (s.replied 3 tag 0 .invalid [2])) ∧
      (s.items.roster.getLsbD own.val = false →
        (s.items.domain = 0 → exec (.goOnline tag []) s = .next (s.replied 3 tag 0 .invalid [3])) ∧
        (s.items.domain ≠ 0 → s.items.cmdMax ≤ s.items.cmdMin →
          exec (.goOnline tag []) s = .next (s.replied 3 tag 0 .invalid [10])) ∧
        (s.items.domain ≠ 0 → s.items.cmdMin < s.items.cmdMax → s.items.fbMax ≤ s.items.fbMin →
          exec (.goOnline tag []) s = .next (s.replied 3 tag 0 .invalid [14])))) ∧
    (s.run.state = .offline → ∀ own : Station, s.items.station = stationNumber own →
      s.items.roster.getLsbD own.val = false → s.items.domain ≠ 0 → s.items.cmdMin < s.items.cmdMax →
      s.items.fbMin < s.items.fbMax →
      ∃ t, exec (.goOnline tag []) s = .next t ∧ t.hasReply 3 tag .ok [] ∧ t.run.state = .assembly ∧ t.run.assembly = 0 ∧
        t.run.trip = s.run.trip ∧
        t.drive.prev = clamp s.items.bias (s.items.cmdMin * 256) (s.items.cmdMax * 256) ∧ t.drive.residual = 0 ∧
        t.drive.code = (t.drive.prev + 128) / 256 ∧ t.drive.strobes = s.drive.strobes + 1 ∧
        t.drive.level = s.drive.level ∧ t.drive.apply = s.drive.apply ∧
        (∀ j : Station, t.drive.active.get j = (if j = own then 0 else s.drive.active.get j) ∧
          t.drive.pendingBank.get j = (if j = own then 0 else s.drive.pendingBank.get j) ∧
          t.peer j = { s.peer j with expected := s.items.roster.getLsbD j.val }) ∧
        t.time = { s.time with rate := s.items.rate, trim := 0 } ∧ t.sched = { s.sched with burst := some (.shape 0) } ∧
        t.arb.serving = (if s.arb.serving = none then some .prefetch else s.arb.serving) ∧ t.store = s.store ∧
        t.port.items = s.port.items)

/-- APPEND_SEGMENT, DISCARD_SCHEDULE and SEEK_REPEAT (R36, R38 to R42): the queue, the head and the positions each leaves. -/
def Obligations.ScheduleCommands : Prop :=
  ∀ (s : State) (tag : Byte), s.takesCommands →
    (∀ (e : Entry) (a0 a1 a2 a3 a4 a5 a6 a7 : Word), e.inRanges →
      [a0, a1, a2, a3, a4, a5, a6, a7] =
        [e.tag, e.startPage, e.length, e.repeats, e.gain, e.fadeIn, e.fadeOut, e.shape].map (BitVec.ofNat 32) →
      s.run.state ≠ .offline →
      (s.sched.queue.length < 64 →
        ∃ t, exec (.appendSegment tag [a0, a1, a2, a3, a4, a5, a6, a7]) s = .next t ∧ t.hasReply 6 tag .ok [] ∧
          t.sched.queue = s.sched.queue ++ [e] ∧ t.sched.fifo = s.sched.fifo ∧
          (s.sched.queue = [] → t.sched.head = some { rep := 1, offset := 0, start := s.sched.next } ∧
            t.sched.next = s.sched.next ∧ t.sched.replay = s.sched.next) ∧
          (s.sched.queue ≠ [] → t.sched.head = s.sched.head ∧ t.sched.next = s.sched.next ∧
            t.sched.replay = s.sched.replay) ∧
          t.sched.reader ≠ none ∧ t.drive = s.drive ∧ t.store = s.store) ∧
      (64 ≤ s.sched.queue.length →
        exec (.appendSegment tag [a0, a1, a2, a3, a4, a5, a6, a7]) s = .next (s.replied 6 tag 8 .full []))) ∧
    (s.run.state ∈ [RunState.standby, .ready, .stopped] →
      (∃ t, exec (.discardSchedule tag []) s = .next t ∧ t.hasReply 7 tag .ok [] ∧ t.sched.queue = [] ∧
        t.sched.head = none ∧ t.sched.current = none ∧ t.sched.previous = none ∧ t.sched.fifo = [] ∧ t.sched.debt = 0 ∧
        t.sched.reader = none ∧ t.sched.next = s.sched.next ∧ t.sched.replay = s.sched.replay ∧
        t.run.state ≠ .ready ∧ t.drive = s.drive ∧ t.store = s.store) ∧
      (∀ (e : Entry) (rest : List Entry) (p : HeadPos) (r : Word), s.sched.queue = e :: rest → s.sched.head = some p →
        (1 ≤ r.toNat → r.toNat ≤ e.repeats →
          ∃ t, exec (.seekRepeat tag [r]) s = .next t ∧ t.hasReply 8 tag .ok [] ∧ t.sched.queue = s.sched.queue ∧
            t.sched.head = some { rep := r.toNat, offset := 0, start := p.start } ∧
            t.sched.next = p.start + BitVec.ofNat 32 ((r.toNat - 1) * e.length) ∧ t.sched.replay = t.sched.next ∧
            t.sched.fifo = [] ∧ t.sched.debt = 0 ∧
            t.sched.reader = some { entry := e, rep := r.toNat, offset := 0, later := rest } ∧
            t.drive = s.drive ∧ t.store = s.store) ∧
        (r.toNat = 0 ∨ e.repeats < r.toNat →
          exec (.seekRepeat tag [r]) s = .next (s.replied 8 tag 1 .invalid [1]))) ∧
      (∀ r : Word, s.sched.head = none →
        exec (.seekRepeat tag [r]) s = .next (s.replied 8 tag 1 .refusedCondition []))) ∧
    (s.run.state ∉ [RunState.standby, .ready, .stopped] → ∀ r : Word,
      exec (.discardSchedule tag []) s = .next (s.replied 7 tag 0 .refusedState []) ∧
      exec (.seekRepeat tag [r]) s = .next (s.replied 8 tag 1 .refusedState []))

/-- WRITE_COUPLING and APPLY_COUPLING (R26, R27): a coefficient enters the pending bank alone; the request is served at an output
instant, in any state, by copying the bank, when it is NOW or the node is not playing. -/
def Obligations.CouplingBanksAreApplied : Prop :=
  ∀ (s : State) (tag : Byte),
    (s.takesCommands → ∀ (j : Station) (a v : Word), a.toNat = stationNumber j →
      (s.items.station ≠ stationNumber j → -32768 ≤ v.toInt → v.toInt ≤ 32767 →
        exec (.writeCoupling tag [a, v]) s = .next (({ s with drive := { s.drive with
          pendingBank := put s.drive.pendingBank j v.toInt } } : State).replied 9 tag 2 .ok [])) ∧
      (s.items.station = stationNumber j →
        exec (.writeCoupling tag [a, v]) s = .next (s.replied 9 tag 2 .invalid [1])) ∧
      (s.items.station ≠ stationNumber j → (v.toInt < -32768 ∨ 32767 < v.toInt) →
        exec (.writeCoupling tag [a, v]) s = .next (s.replied 9 tag 2 .invalid [2]))) ∧
    (s.takesCommands →
      exec (.applyCoupling tag [1]) s = .next
        (({ s with drive := { s.drive with apply := .now } } : State).replied 10 tag 1 .ok []) ∧
      exec (.applyCoupling tag [2]) s = .next
        (({ s with drive := { s.drive with apply := .atRepeat } } : State).replied 10 tag 1 .ok []) ∧
      (∀ w : Word, w.toNat = 0 ∨ 2 < w.toNat →
        exec (.applyCoupling tag [w]) s = .next (s.replied 10 tag 1 .invalid [1]))) ∧
    (∀ first, s.cond = .running → s.time.mark = false →
      (s.drive.apply = .now ∨ (s.drive.apply = .atRepeat ∧ s.run.state.playing = false) ∨
        (s.drive.apply = .atRepeat ∧ ∃ e rest p, s.sched.queue = e :: rest ∧ s.sched.head = some p ∧ p.offset = 0)) →
      ∃ t, exec (.outputInstant first) s = .next t ∧ t.drive.active = s.drive.pendingBank ∧
        t.drive.pendingBank = s.drive.pendingBank ∧ t.drive.apply = .none) ∧
    (∀ first e rest p, s.cond = .running → s.time.mark = false → s.drive.apply = .atRepeat → s.run.state.playing = true →
      s.sched.queue = e :: rest → s.sched.head = some p → p.offset ≠ 0 →
      ∃ t, exec (.outputInstant first) s = .next t ∧ t.drive.active = s.drive.active ∧ t.drive.apply = .atRepeat)

/-- R208: CLEAR_COUNTERS sets all 52 counters to 0, replies OK, in every run state, and touches nothing else; an increment before it is
lost, one after it reads 1. -/
def Obligations.ClearCountersClearsAll : Prop :=
  ∀ (s : State) (tag : Byte), s.takesCommands →
    exec (.clearCounters tag []) s = .next (({ s with port := { s.port with
      counters := Vector.replicate 52 0 } } : State).replied 19 tag 0 .ok []) ∧
    ∀ (c : Counter) (t : State), exec (.clearCounters tag []) s = .next t →
      t.counter c = 0 ∧ (t.bump c).counter c = 1 ∧ exec (.clearCounters tag []) (s.bump c) = .next t

/-! ### What every step keeps -/

/-- The trip line, the countdown order and R stand as the run state says (R70, R76, R97; R20, R21, R80). -/
def Obligations.StepKeepsRunLaws : Prop :=
  ∀ s t : State, step s = .next t →
    (s.tripLaw → t.tripLaw) ∧ (s.countdownLaw → t.countdownLaw) ∧ (s.restLaw → t.restLaw)

/-- READY stands with all four READY conditions, and STANDBY without them (R74); and in motion servo-ready is asserted (R62, R74, R76). -/
def Obligations.StepKeepsReadyLaw : Prop :=
  ∀ s t : State, s.readyLaw → step s = .next t → t.readyLaw ∧ (s.motionLaw → t.motionLaw)

/-- Every code is within the command range, P and the residual within theirs; L, R, the ramps, the orders and the coefficients within
theirs (R3, R17 to R19, R22, R99). -/
def Obligations.StepKeepsDriveLaws : Prop :=
  ∀ s t : State, step s = .next t → (s.outputLaw → t.outputLaw) ∧ (s.factorLaw → t.factorLaw)

/-- Store and shape copy keep their canonical form and their range (R28, R29, R31; log 5). -/
def Obligations.StepKeepsStoreLaw : Prop :=
  ∀ s t : State, s.storeLaw → step s = .next t → t.storeLaw

/-- The schedule queue, the playback position, the FIFO and the debt stand as R33, R35, R38 and R42 say. -/
def Obligations.StepKeepsScheduleLaws : Prop :=
  ∀ s t : State, step s = .next t → (s.scheduleLaw → t.scheduleLaw) ∧ (s.fifoLaw → t.fifoLaw)

/-- The peer table and the duplicate filter keep their ranges, and the own station takes no part in them (R136, R139, R149, R158). -/
def Obligations.StepKeepsTableLaws : Prop :=
  ∀ s t : State, step s = .next t → (s.tableLaw → t.tableLaw) ∧ (s.rosterLaw → t.rosterLaw)

/-- Sides, lanes, the pending list and the history, the trim, the event queue and the counters keep their ranges (R98, R111, R112, R132,
R173, R185, R204, R207), and every cycle keeps an edge for its output instant (R121, R123). -/
def Obligations.StepKeepsUnitLaws : Prop :=
  ∀ s t : State, step s = .next t → (s.ringLaw → t.ringLaw) ∧ (s.orderLaw → t.orderLaw) ∧ (s.trimLaw → t.trimLaw) ∧
    (s.portLaw → t.portLaw) ∧ (s.items.inRanges → s.trimLaw → s.clockLaw → t.clockLaw)

/-- The machine right after reset meets every law that a step keeps. It stands as the running part in OFFLINE (log 1). -/
def Obligations.ResetMeetsTheLaws : Prop :=
  State.reset.tripLaw ∧ State.reset.countdownLaw ∧ State.reset.restLaw ∧ State.reset.readyLaw ∧ State.reset.outputLaw ∧
  State.reset.factorLaw ∧ State.reset.storeLaw ∧ State.reset.scheduleLaw ∧ State.reset.fifoLaw ∧ State.reset.tableLaw ∧
  State.reset.rosterLaw ∧ State.reset.ringLaw ∧ State.reset.orderLaw ∧ State.reset.trimLaw ∧ State.reset.portLaw ∧ State.reset.motionLaw ∧
  State.reset.clockLaw ∧
  State.reset.scratch = .rest ∧ State.reset.run.state = .offline ∧ State.reset.drive.code = 0 ∧
  State.reset.drive.level = 32768 ∧ State.reset.run.trip = true ∧ State.reset.pending = []
end

