-- ==== Sys2Proof/Laws/Arithmetic.lean ====
section
/-! SUPPORT. The integer laws that the drive unit and the timebase rest on: clamps, the remainder of the rounding, and the steps
of a ramp. -/

namespace Sys2Proof.Machine

/-- A clamp lies in its range. -/
theorem clamp_mem (x : Int) {lo hi : Int} (h : lo ≤ hi) : lo ≤ clamp x lo hi ∧ clamp x lo hi ≤ hi := by
  unfold clamp
  split
  · omega
  · split <;> omega

/-- A clamp leaves a value within its range. -/
theorem clamp_of_mem {x lo hi : Int} (h : lo ≤ x) (h' : x ≤ hi) : clamp x lo hi = x := by
  unfold clamp
  split
  · omega
  · split <;> omega

/-- A value limited to a move from a centre that lies in a range with it stays in the range. -/
theorem clamp_move_mem {x p d lo hi : Int} (hd : 0 ≤ d) (hx : lo ≤ x ∧ x ≤ hi) (hp : lo ≤ p ∧ p ≤ hi) :
    lo ≤ clamp x (p - d) (p + d) ∧ clamp x (p - d) (p + d) ≤ hi := by
  unfold clamp
  split
  · omega
  · split <;> omega

/-- The remainder of the rounding to a code lies in -128 .. 127. -/
theorem codeOf_remainder (v : Int) : -128 ≤ v - 256 * codeOf v ∧ v - 256 * codeOf v ≤ 127 := by
  unfold codeOf
  omega

/-- Rounding keeps a value of a range of whole codes, moved by a remainder, within those codes. -/
theorem codeOf_mem {v lo hi r : Int} (hr : -128 ≤ r ∧ r ≤ 127) (hv : lo * 256 ≤ v - r ∧ v - r ≤ hi * 256) :
    lo ≤ codeOf v ∧ codeOf v ≤ hi := by
  unfold codeOf
  omega

/-- A product with a factor of at most 1 in units of 1/32768, rounded, is no larger. -/
theorem roundedProduct_le {a b : Nat} (hb : b ≤ 32768) : (a * b + 16384) / 32768 ≤ a := by
  have h : a * b ≤ a * 32768 := Nat.mul_le_mul_left a hb
  omega

/-- A step of a ramp lies between its start and its target. -/
theorem Ramp.value_mem (r : Ramp) {k : Nat} (hn : 0 < r.length) (hk : k ≤ r.length) :
    min r.start r.target ≤ r.value k ∧ r.value k ≤ max r.start r.target := by
  have hN : (0 : Int) < 2 * (r.length : Int) := by omega
  unfold Ramp.value
  generalize hq : (2 * ((r.target : Int) - r.start) * k + r.length) / (2 * (r.length : Int)) = q
  have lo := Int.ediv_mul_le (2 * ((r.target : Int) - r.start) * k + r.length) (Int.ne_of_gt hN)
  have hi := Int.lt_ediv_add_one_mul_self (2 * ((r.target : Int) - r.start) * k + r.length) hN
  rw [hq] at lo hi
  rcases Nat.le_total r.start r.target with h | h
  · have d0 : (0 : Int) ≤ (r.target : Int) - r.start := by omega
    have a1 : 2 * ((r.target : Int) - r.start) * k ≤ 2 * ((r.target : Int) - r.start) * r.length :=
      mul_le_mul_of_nonneg_left (by exact_mod_cast hk) (by omega)
    have a0 : 0 ≤ 2 * ((r.target : Int) - r.start) * k := by positivity
    have q0 : 0 ≤ q := by
      by_contra hc
      have : q + 1 ≤ 0 := by omega
      nlinarith
    have q1 : q ≤ (r.target : Int) - r.start := by
      by_contra hc
      have : (r.target : Int) - r.start + 1 ≤ q := by omega
      nlinarith
    omega
  · have d0 : 0 ≤ (r.start : Int) - r.target := by omega
    have a1 : 2 * ((r.start : Int) - r.target) * k ≤ 2 * ((r.start : Int) - r.target) * r.length :=
      mul_le_mul_of_nonneg_left (by exact_mod_cast hk) (by omega)
    have a0 : 0 ≤ 2 * ((r.start : Int) - r.target) * k := by positivity
    have q0 : q ≤ 0 := by
      by_contra hc
      have : 1 ≤ q := by omega
      nlinarith
    have q1 : (r.target : Int) - r.start ≤ q := by
      by_contra hc
      have : q + 1 ≤ (r.target : Int) - r.start := by omega
      nlinarith
    omega

/-- The last step of a ramp gives its target. -/
theorem Ramp.value_length (r : Ramp) (hn : 0 < r.length) : r.value r.length = r.target := by
  have e : (2 * ((r.target : Int) - r.start) * r.length + r.length) / (2 * r.length) = (r.target : Int) - r.start := by
    have hN : (0 : Int) < 2 * (r.length : Int) := by omega
    have : 2 * ((r.target : Int) - r.start) * r.length + r.length =
        (r.length : Int) + (2 * (r.length : Int)) * ((r.target : Int) - r.start) := by ring
    rw [this, Int.add_mul_ediv_left _ _ (Int.ne_of_gt hN), Int.ediv_eq_zero_of_lt (by omega) (by omega), Int.zero_add]
  unfold Ramp.value
  rw [e]
  omega

/-- The trim lies within TrimMax of 0. -/
theorem trimOf_mem (m : Int) (n : Nat) : -(n : Int) ≤ trimOf m n ∧ trimOf m n ≤ n :=
  clamp_mem _ (by omega)

end Sys2Proof.Machine
end

