-- ==== Sys2Proof/Laws/Clock.lean ====
section
/-! SUPPORT. The clock within a cycle: what the passing of edges leaves, how many edges lie before the next boundary and the next
output instant, and the cycle brought to its end. -/

namespace Sys2Proof.Machine

variable (s : State) (n : Nat)

/-! ### The edges -/

/-- K stays positive while the trim keeps its range (R120, R122). -/
theorem State.increment_pos {s : State} (h : -127 ≤ s.time.trim) : 0 < s.increment := by
  have : 127 < nominalIncrement s.time.rate := by unfold nominalIncrement; split <;> decide
  unfold State.increment; omega

/-- The first edge at or beyond a mark that lies ahead: one edge fewer falls short of it. -/
theorem edges_reach {a k m : Nat} (hk : 0 < k) (h : a < m) :
    m ≤ a + ((m - a + k - 1) / k) * k ∧ a + ((m - a + k - 1) / k - 1) * k < m ∧ 1 ≤ (m - a + k - 1) / k := by
  obtain ⟨q, hq⟩ : ∃ q, q = (m - a + k - 1) / k := ⟨_, rfl⟩
  have hm := Nat.div_add_mod (m - a + k - 1) k
  have hr := Nat.mod_lt (m - a + k - 1) hk
  rw [← hq] at hm ⊢
  have h1 : 1 ≤ q := by rw [hq, Nat.one_le_div_iff hk]; omega
  obtain ⟨p, rfl⟩ : ∃ p, q = p + 1 := ⟨q - 1, by omega⟩
  have h2 : (p + 1) * k = k * p + k := by ring
  have h3 : p * k = k * p := Nat.mul_comm _ _
  rw [Nat.add_sub_cancel, h2, h3]
  rw [Nat.mul_add, Nat.mul_one] at hm
  omega

/-- The boundary is the first edge that carries (R121). -/
theorem State.edgesToBoundary_spec {s : State} (h : 0 < s.increment) :
    4294967296 ≤ s.time.acc.toNat + s.edgesToBoundary * s.increment ∧
    s.time.acc.toNat + (s.edgesToBoundary - 1) * s.increment < 4294967296 ∧ 1 ≤ s.edgesToBoundary :=
  edges_reach h s.time.acc.isLt

/-- An output instant is never at the edge that stands (R123). -/
theorem State.edgesToInstant_pos : 1 ≤ s.edgesToInstant := le_max_left _ _

/-- The output instant of a phase below OutputPhase is the first edge at which the phase has reached it (R123). -/
theorem State.edgesToInstant_spec {s : State} (h : 0 < s.increment) (hp : s.time.acc.toNat < s.items.outputPhase * 65536) :
    s.items.outputPhase * 65536 ≤ s.time.acc.toNat + s.edgesToInstant * s.increment ∧
    s.time.acc.toNat + (s.edgesToInstant - 1) * s.increment < s.items.outputPhase * 65536 := by
  obtain ⟨h1, h2, h3⟩ := edges_reach h hp
  have : s.edgesToInstant = (s.items.outputPhase * 65536 - s.time.acc.toNat + s.increment - 1) / s.increment :=
    max_eq_right h3
  rw [this]; exact ⟨h1, h2⟩

/-! ### What passing edges leave -/

@[simp] theorem State.elapse_cycle : (s.elapse n).time.cycle = s.time.cycle := rfl
@[simp] theorem State.elapse_mark : (s.elapse n).time.mark = s.time.mark := rfl
@[simp] theorem State.elapse_trim : (s.elapse n).time.trim = s.time.trim := rfl
@[simp] theorem State.elapse_rate : (s.elapse n).time.rate = s.time.rate := rfl
@[simp] theorem State.elapse_fresh : (s.elapse n).time.fresh = s.time.fresh := rfl
@[simp] theorem State.elapse_acc :
    (s.elapse n).time.acc = BitVec.ofNat 32 (s.time.acc.toNat + n * s.increment) := rfl
@[simp] theorem State.elapse_cond : (s.elapse n).cond = s.cond := rfl
@[simp] theorem State.elapse_run : (s.elapse n).run = s.run := rfl
@[simp] theorem State.elapse_drive : (s.elapse n).drive = s.drive := rfl
@[simp] theorem State.elapse_sched : (s.elapse n).sched = s.sched := rfl
@[simp] theorem State.elapse_arb : (s.elapse n).arb = s.arb := rfl
@[simp] theorem State.elapse_store : (s.elapse n).store = s.store := rfl
@[simp] theorem State.elapse_servo : (s.elapse n).servo = s.servo := rfl
@[simp] theorem State.elapse_orders : (s.elapse n).orders = s.orders := rfl
@[simp] theorem State.elapse_peers : (s.elapse n).peers = s.peers := rfl
@[simp] theorem State.elapse_filter : (s.elapse n).filter = s.filter := rfl
@[simp] theorem State.elapse_waiting : (s.elapse n).waiting = s.waiting := rfl
@[simp] theorem State.elapse_pending : (s.elapse n).pending = s.pending := rfl
@[simp] theorem State.elapse_scratch : (s.elapse n).scratch = s.scratch := rfl
@[simp] theorem State.elapse_items : (s.elapse n).items = s.items := rfl
@[simp] theorem State.elapse_increment : (s.elapse n).increment = s.increment := rfl
@[simp] theorem State.elapse_lane (l : Lane) : (s.elapse n).lane l = s.lane l := by cases l <;> rfl
@[simp] theorem State.elapse_sideState (d : Side) : ((s.elapse n).side d).state = (s.side d).state := by cases d <;> rfl

/-- Edges that pass within a cycle: at most those asked for, and all of them unless an output instant or a boundary lies among
them (log 9). -/
theorem State.elapseWithin_eq : ∃ m, m ≤ n ∧ m ≤ s.edgesToEvent - 1 ∧ (n < s.edgesToEvent → m = n) ∧
    s.elapseWithin n = s.elapse m :=
  ⟨min n (s.edgesToEvent - 1), min_le_left _ _, min_le_right _ _, fun h => min_eq_left (by omega), rfl⟩

/-! ### The end of a cycle -/

/-- A cycle whose instant has been taken ends with its boundary alone. -/
theorem State.instant_marked (first : List InstantReport) {s : State} (h : s.time.mark = true) : s.instant first = s := by
  rw [State.instant, if_pos h]

/-- A cycle whose instant is still to come takes it at its edge (R123). -/
theorem State.instant_unmarked (first : List InstantReport) {s : State} (h : s.time.mark = false) :
    s.instant first = (s.elapse s.edgesToInstant).takeInstant first := by
  rw [State.instant, if_neg (by simp [h])]

/-- The end of a cycle whose instant has been taken is the boundary (R121). -/
theorem State.endCycle_marked (first : List BoundaryAction) {s : State} (h : s.time.mark = true) :
    s.endCycle first = s.settle.boundary first := by
  rw [State.endCycle, State.instant_marked _ h]

/-! ### STOP -/

/-- A STOP with which nothing falls together is its request and an OK (R89). -/
theorem State.stopCommand_alone :
    s.stopCommand none = (s.requestLocal .operator s.ownNumber).finish .ok [] := rfl

/-- A STOP with which an event falls together takes the event first (R89, log 39). -/
theorem State.stopCommand_behind (e : Together) :
    s.stopCommand (some e) = ((s.happens e).requestLocal .operator (s.happens e).ownNumber).finish .ok [] := rfl

end Sys2Proof.Machine
end

