-- ==== Sys2Proof/Laws/Order.lean ====
section
/-! SUPPORT. The orders that the commands of time carry: every act of a boundary and every report of an instant is taken exactly
once, whatever order is named. -/

namespace Sys2Proof.Laws

open Sys2Proof Sys2Proof.Machine

theorem eraseDups_nodup {α : Type} [DecidableEq α] : (n : Nat) → (l : List α) → l.length ≤ n → l.eraseDups.Nodup
  | _, [], _ => by simp
  | 0, _ :: _, h => by simp at h
  | n + 1, a :: l, h => by
    rw [List.eraseDups_cons, List.nodup_cons]
    refine ⟨by simp, eraseDups_nodup n _ ((List.length_filter_le _ _).trans ?_)⟩
    simpa using h

/-- The order taken is a rearrangement of the whole: nothing is left out and nothing is taken twice. -/
theorem orderedBy_perm {α : Type} [DecidableEq α] (first all : List α) (h : all.Nodup) : (orderedBy first all).Perm all := by
  have hd : (orderedBy first all).Nodup := by
    unfold orderedBy
    refine List.Nodup.append (eraseDups_nodup _ _ le_rfl) (h.filter _) ?_
    intro x hx hy
    simp at hx hy
    exact hy.2 hx.1
  rw [List.perm_ext_iff_of_nodup hd h]
  intro x
  simp [orderedBy]
  tauto

/-- The acts of a boundary are all different. -/
theorem boundaryActions_nodup : boundaryActions.Nodup := by decide

/-- Naming no order takes the whole in its own order. -/
@[simp] theorem orderedBy_nil {α : Type} [DecidableEq α] (all : List α) : orderedBy [] all = all := by
  simp [orderedBy]

/-- Every act of a boundary is taken once, in whatever order the command names (R71). -/
theorem boundary_acts_perm (first : List BoundaryAction) : (orderedBy first boundaryActions).Perm boundaryActions :=
  orderedBy_perm first boundaryActions boundaryActions_nodup

/-- Every report of an output instant is made once, in whatever order the command names (R88). -/
theorem instant_reports_perm (first : List InstantReport) : (orderedBy first instantReports).Perm instantReports :=
  orderedBy_perm first instantReports (by decide)

end Sys2Proof.Laws
end

