-- ==== Sys2Proof/Laws/Quiet.lean ====
section
/-! SUPPORT. What the shared operations leave alone, said once for each: `quiet` gathers the parts of State that no act of a
boundary and no report of an instant touches, and every operation below keeps it. -/

namespace Sys2Proof.Machine

/-- The parts of the drive unit that only a computation, a presentation or a bank changes. -/
abbrev DriveOutput := Int × Int × Int × Int × Vector Int 16 × Vector Int 16 × ApplyRequest × Bool × Bool × Nat

/-- P, residual, code, held sample, banks, apply request, flags and strobes. -/
def Drive.output (d : Drive) : DriveOutput :=
  (d.prev, d.residual, d.code, d.held, d.active, d.pendingBank, d.apply, d.clipFlag, d.slewFlag, d.strobes)

/-- The parts of State that neither an acceptance nor an act of a boundary touches. -/
abbrev Steady :=
  Condition × Words × Nat × List Instr × Items × Servo × DriveOutput × Word × Fin 3 × Bool

/-- Condition, store, queue of commands, items, servo side, drive output, accumulator, rate and mark. -/
def State.steady (s : State) : Steady :=
  (s.cond, s.store, s.cuts, s.pending, s.port.items, s.servo, s.drive.output, s.time.acc, s.time.rate, s.time.mark)

/-- The steady parts with the cycle count, the filter table and the waiting copies. -/
def State.quiet (s : State) : Steady × Word × Vector FilterEntry 16 × List Copy :=
  (s.steady, s.time.cycle, s.filter, s.waiting)

/-- What is quiet is steady. -/
theorem State.steady_of_quiet {s t : State} (h : s.quiet = t.quiet) : s.steady = t.steady := congrArg Prod.fst h

theorem State.cond_of_steady {s t : State} (h : s.steady = t.steady) : s.cond = t.cond := congrArg (·.1) h

theorem State.store_of_steady {s t : State} (h : s.steady = t.steady) : s.store = t.store := congrArg (·.2.1) h

theorem State.cuts_of_steady {s t : State} (h : s.steady = t.steady) : s.cuts = t.cuts := congrArg (·.2.2.1) h

theorem State.pending_of_steady {s t : State} (h : s.steady = t.steady) : s.pending = t.pending :=
  congrArg (·.2.2.2.1) h

theorem State.items_of_steady {s t : State} (h : s.steady = t.steady) : s.port.items = t.port.items :=
  congrArg (·.2.2.2.2.1) h

theorem State.servo_of_steady {s t : State} (h : s.steady = t.steady) : s.servo = t.servo := congrArg (·.2.2.2.2.2.1) h

theorem State.output_of_steady {s t : State} (h : s.steady = t.steady) : s.drive.output = t.drive.output :=
  congrArg (·.2.2.2.2.2.2.1) h

theorem State.acc_of_steady {s t : State} (h : s.steady = t.steady) : s.time.acc = t.time.acc :=
  congrArg (·.2.2.2.2.2.2.2.1) h

theorem State.rate_of_steady {s t : State} (h : s.steady = t.steady) : s.time.rate = t.time.rate :=
  congrArg (·.2.2.2.2.2.2.2.2.1) h

theorem State.mark_of_steady {s t : State} (h : s.steady = t.steady) : s.time.mark = t.time.mark :=
  congrArg (·.2.2.2.2.2.2.2.2.2) h

theorem State.cycle_of_quiet {s t : State} (h : s.quiet = t.quiet) : s.time.cycle = t.time.cycle := congrArg (·.2.1) h

theorem State.filter_of_quiet {s t : State} (h : s.quiet = t.quiet) : s.filter = t.filter := congrArg (·.2.2.1) h

theorem State.waiting_of_quiet {s t : State} (h : s.quiet = t.quiet) : s.waiting = t.waiting := congrArg (·.2.2.2) h

/-- A fold of operations that each keep a projection keeps it. -/
theorem foldl_keeps {α β γ : Type} (p : β → γ) (f : β → α → β) (h : ∀ b a, p (f b a) = p b) (l : List α) (b : β) :
    p (l.foldl f b) = p b := by
  induction l generalizing b with
  | nil => rfl
  | cons a l ih => exact (ih (f b a)).trans (h b a)

/-! ### Events, requests of the store port, the schedule -/

theorem State.post_quiet (s : State) (k : EventKind) (a b : Word) : (s.post k a b).quiet = s.quiet := by
  unfold State.post; split <;> rfl

theorem State.bump_quiet (s : State) (c : Counter) : (s.bump c).quiet = s.quiet := rfl

theorem State.fetch_quiet (s : State) : s.fetch.quiet = s.quiet := by
  unfold State.fetch; split
  · rfl
  · split <;> rfl

theorem State.flush_quiet (s : State) : s.flush.quiet = s.quiet := State.fetch_quiet _

theorem State.rewind_quiet (s : State) : s.rewind.quiet = s.quiet := by
  unfold State.rewind; split <;> exact State.flush_quiet _

theorem State.append_quiet (e : Entry) (s : State) : (s.append e).quiet = s.quiet := State.fetch_quiet _

theorem State.discardQueue_quiet (s : State) : s.discardQueue.quiet = s.quiet := State.flush_quiet _

theorem Drive.stepLevel_output (d : Drive) : d.stepLevel.output = d.output := by
  unfold Drive.stepLevel; split <;> rfl

theorem Drive.stepRun_output (d : Drive) (k : Nat) : (d.stepRun k).1.output = d.output := by
  unfold Drive.stepRun; split <;> rfl

/-- A drive unit changed within its ramps keeps the rest quiet. -/
theorem State.drive_quiet {s : State} {d : Drive} (h : d.output = s.drive.output) :
    State.quiet { s with drive := d } = s.quiet := by
  simp only [State.quiet, State.steady, h]

theorem State.rampLevel_quiet (b n : Nat) (s : State) : (s.rampLevel b n).quiet = s.quiet := by
  refine State.drive_quiet ?_
  split
  · exact Drive.stepLevel_output _
  · rfl

/-! ### The run controller -/

theorem State.changeState_quiet (r : RunState) (s : State) : (s.changeState r).quiet = s.quiet := State.post_quiet s _ _ _

theorem State.readyTest_quiet (s : State) : s.readyTest.quiet = s.quiet := by
  unfold State.readyTest
  repeat' split
  all_goals first | rfl | exact State.changeState_quiet _ _

theorem State.enterStandby_quiet (s : State) : s.enterStandby.quiet = s.quiet :=
  (State.readyTest_quiet _).trans (State.changeState_quiet _ _)

theorem State.returnToReady_quiet (s : State) : s.returnToReady.quiet = s.quiet :=
  (State.readyTest_quiet _).trans (State.changeState_quiet _ _)

theorem State.reportIncomplete_quiet (s : State) : s.reportIncomplete.quiet = s.quiet := by
  unfold State.reportIncomplete
  split
  all_goals first | rfl | exact State.changeState_quiet _ _

theorem State.enterStopped_quiet (s : State) : s.enterStopped.quiet = s.quiet :=
  (State.rewind_quiet _).trans (State.changeState_quiet _ _)

theorem State.takeReport_quiet (r : RampReport) (s : State) : (s.takeReport r).quiet = s.quiet := by
  cases r
  · rfl
  · simp only [State.takeReport]; split
    · exact State.changeState_quiet _ _
    · rfl
  · simp only [State.takeReport]; split
    · exact State.enterStopped_quiet _
    · rfl

theorem State.stepRunRamp_quiet (s : State) : s.stepRunRamp.quiet = s.quiet :=
  (State.takeReport_quiet _ _).trans (State.drive_quiet (Drive.stepRun_output s.drive _))

theorem State.firstStep_quiet (s : State) : s.firstStep.quiet = s.quiet := by
  unfold State.firstStep; split
  · exact State.stepRunRamp_quiet s
  · rfl

theorem State.beginRamp_quiet (z : Bool) (x n : Nat) (s : State) : (s.beginRamp z x n).quiet = s.quiet := by
  unfold State.beginRamp; split
  · rfl
  · exact State.firstStep_quiet _

theorem State.stepRamps_quiet (s : State) : s.stepRamps.quiet = s.quiet := by
  unfold State.stepRamps; split
  · rfl
  · exact (State.stepRunRamp_quiet _).trans (State.drive_quiet (Drive.stepLevel_output s.drive))

theorem State.taken_quiet (q : StopRequest) (s : State) : (s.taken q).quiet = s.quiet := State.post_quiet _ _ _ _

theorem State.noteRequest_quiet (q : StopRequest) (s : State) : (s.noteRequest q).quiet = s.quiet := by
  simp only [State.noteRequest]
  split
  · exact State.post_quiet _ _ _ _
  · split
    · rfl
    · exact State.post_quiet (s.bump .stopsNoted) _ _ _

theorem State.cancelCountdown_quiet (q : StopRequest) (s : State) : (s.cancelCountdown q).quiet = s.quiet :=
  (State.returnToReady_quiet _).trans (State.taken_quiet q s)

theorem State.beginDescent_quiet (s : State) : s.beginDescent.quiet = s.quiet := State.firstStep_quiet _

theorem State.latch_quiet (q : StopRequest) (s : State) : (s.latch q).quiet = s.quiet := rfl

theorem State.setStopField_quiet (q : StopRequest) (s : State) : (s.setStopField q).quiet = s.quiet := rfl

theorem State.escalate_quiet (s : State) : s.escalate.quiet = s.quiet := rfl

theorem State.countFurther_quiet (s : State) : s.countFurther.quiet = s.quiet := rfl

theorem State.enterStopping_quiet (q : StopRequest) (s : State) : (s.enterStopping q).quiet = s.quiet :=
  (State.beginDescent_quiet _).trans ((State.changeState_quiet _ _).trans ((State.setStopField_quiet _ _).trans
    ((State.latch_quiet _ _).trans (State.taken_quiet q s))))

theorem State.freeze_quiet (s : State) : s.freeze.quiet = s.quiet := rfl

theorem State.setHold_quiet (b : Bool) (s : State) : (s.setHold b).quiet = s.quiet := rfl

theorem State.enterTripped_quiet (q : StopRequest) (s : State) : (s.enterTripped q).quiet = s.quiet := by
  have h : ((s.taken q).latch q).quiet = s.quiet := (State.latch_quiet _ _).trans (State.taken_quiet q s)
  have g : ∀ t : State, t.quiet = s.quiet →
      (((((t.setStopField q).changeState .tripped).freeze).setHold true).rewind).quiet = s.quiet := fun t ht =>
    (State.rewind_quiet _).trans ((State.setHold_quiet _ _).trans ((State.freeze_quiet _).trans
      ((State.changeState_quiet _ _).trans ((State.setStopField_quiet _ _).trans ht))))
  refine g _ ?_
  split
  · exact (State.escalate_quiet _).trans h
  · exact h

theorem State.request_quiet (q : StopRequest) (s : State) : (s.request q).quiet = s.quiet := by
  have h := State.countFurther_quiet s
  simp only [State.request]
  split
  · rfl
  · exact (State.bump_quiet _ _).trans h
  · exact (State.enterTripped_quiet _ _).trans h
  · exact (State.noteRequest_quiet _ _).trans h
  · exact (State.noteRequest_quiet _ _).trans h
  · exact (State.noteRequest_quiet _ _).trans h
  · exact (State.cancelCountdown_quiet _ _).trans h
  · exact (State.enterStopping_quiet _ _).trans h
  · exact (State.enterStopping_quiet _ _).trans h
  · exact (State.enterStopping_quiet _ _).trans h
  · exact (State.bump_quiet _ _).trans h
  · exact (State.bump_quiet _ _).trans h
  · exact (State.noteRequest_quiet _ _).trans h

theorem State.requestLocal_quiet (c : Cause) (j : Nat) (s : State) : (s.requestLocal c j).quiet = s.quiet :=
  State.request_quiet _ s

theorem State.isolatedTest_quiet (s : State) : s.isolatedTest.quiet = s.quiet := by
  unfold State.isolatedTest; split
  · exact State.requestLocal_quiet _ _ _
  · rfl

theorem State.assemblyTest_quiet (s : State) : s.assemblyTest.quiet = s.quiet := by
  simp only [State.assemblyTest]
  repeat' split
  all_goals first | rfl | exact State.enterStandby_quiet _

theorem State.abortCountdown_quiet (j : Station) (s : State) : (s.abortCountdown j).quiet = s.quiet :=
  (State.returnToReady_quiet _).trans (State.post_quiet s _ _ _)

theorem State.countdownCheck_quiet (s : State) : s.countdownCheck.quiet = s.quiet := by
  unfold State.countdownCheck
  repeat' split
  all_goals first | rfl | exact State.abortCountdown_quiet _ _

/-! ### The order unit -/

theorem State.emptyWindows_quiet (s : State) : s.emptyWindows.quiet = s.quiet := by
  exact foldl_keeps State.quiet (fun (t : State) j => t.onPeer j (fun p => { p with window := [], holdRun := 0 }))
    (fun t j => (congrArg (fun x => (x, t.time.cycle, t.filter, t.waiting)) (rfl : t.steady = t.steady))) stations s

/-- A run controller changed keeps the rest quiet. -/
theorem State.run_quiet (s : State) (r : Run) : State.quiet { s with run := r } = s.quiet := rfl

theorem State.enterCountdown_quiet (i : OrderId) (s : State) : (s.enterCountdown i).quiet = s.quiet := by
  have g : ∀ (t : State) (r : Run), t.quiet = s.quiet → (State.emptyWindows { t with run := r }).quiet = s.quiet :=
    fun t r ht => (State.emptyWindows_quiet _).trans ((State.run_quiet t r).trans ht)
  exact g (s.changeState .countdown) _ (State.changeState_quiet _ s)

theorem State.originate_quiet (k : OrderKind) (a b : Nat) (s : State) : (s.originate k a b).quiet = s.quiet := by
  have h : ∀ (i : OrderId) (t : State), t.quiet = s.quiet → (if k = .start then t.enterCountdown i else t).quiet = s.quiet := by
    intro i t ht
    split
    · exact (State.enterCountdown_quiet _ _).trans ht
    · exact ht
  unfold State.originate
  exact h _ _ rfl

theorem State.displace_quiet (e w : Order) (s : State) : (s.displace e w).quiet = s.quiet := by
  have h : ∀ t : State, t.quiet = s.quiet →
      (if t.run.state = .countdown ∧ t.run.countdown = some e.id then t.returnToReady else t).quiet = s.quiet := by
    intro t ht
    split
    · exact (State.returnToReady_quiet t).trans ht
    · exact ht
  unfold State.displace
  refine h _ ?_
  split
  · exact State.post_quiet _ _ _ _
  · rfl

theorem State.considerStart_quiet (f : Frame) (o : Order) (s : State) : (s.considerStart f o).quiet = s.quiet := by
  unfold State.considerStart
  split
  · split
    · exact State.enterCountdown_quiet _ _
    · exact State.post_quiet _ _ _ _
  · rfl

theorem State.insertAdopted_quiet (f : Frame) (o : Order) (s : State) : (s.insertAdopted f o).quiet = s.quiet := by
  unfold State.insertAdopted
  exact (State.considerStart_quiet f o _).trans ((State.post_quiet _ _ _ _).trans (State.bump_quiet _ _))

theorem State.placeAdopted_quiet (f : Frame) (j : Station) (o : Order) (s : State) :
    (s.placeAdopted f j o).quiet = s.quiet := by
  unfold State.placeAdopted
  split
  · exact State.requestLocal_quiet _ _ _
  split
  · exact State.requestLocal_quiet _ _ _
  · exact State.insertAdopted_quiet _ _ _

theorem State.adopt_quiet (f : Frame) (j : Station) (o : Order) (s : State) : (s.adopt f j o).quiet = s.quiet := by
  unfold State.adopt
  split
  · rfl
  split
  · rfl
  split
  · rfl
  split
  · exact (State.placeAdopted_quiet _ _ _ _).trans (State.displace_quiet _ _ _)
  · split
    · exact State.requestLocal_quiet _ _ _
    · exact State.placeAdopted_quiet _ _ _ _

theorem State.takeOrderPart_quiet (f : Frame) (j : Station) (s : State) : (s.takeOrderPart f j).quiet = s.quiet := by
  have h : ∀ (e : Half) (t : State), (t.offerEpoch e).quiet = t.quiet := fun _ _ => rfl
  simp only [State.takeOrderPart]
  split
  · exact h _ _
  · split
    · exact (State.adopt_quiet _ _ _ _).trans ((h _ _).trans (h _ _))
    · exact (h _ _).trans (h _ _)

theorem State.noteApplied_quiet (o : Order) (s : State) : (s.noteApplied o).quiet = s.quiet := State.post_quiet _ _ _ _

theorem State.declareInapplicable_quiet (o : Order) (s : State) : (s.declareInapplicable o).quiet = s.quiet :=
  State.post_quiet _ _ _ _

theorem State.setLevel_quiet (b : Nat) (s : State) : (s.setLevel b).quiet = s.quiet := rfl

theorem State.setRunStart_quiet (s : State) : s.setRunStart.quiet = s.quiet := rfl

theorem State.applyStart_quiet (o : Order) (s : State) : (s.applyStart o).quiet = s.quiet :=
  (State.beginRamp_quiet _ _ _ _).trans ((State.setRunStart_quiet _).trans ((State.setLevel_quiet _ _).trans
    ((State.changeState_quiet .run (s.noteApplied o)).trans (State.noteApplied_quiet o s))))

theorem State.applyPause_quiet (o : Order) (s : State) : (s.applyPause o).quiet = s.quiet :=
  (State.beginRamp_quiet _ _ _ _).trans ((State.changeState_quiet _ _).trans (State.noteApplied_quiet o s))

theorem State.applyResume_quiet (o : Order) (s : State) : (s.applyResume o).quiet = s.quiet :=
  (State.beginRamp_quiet _ _ _ _).trans ((State.setRunStart_quiet _).trans
    ((State.changeState_quiet .run (s.noteApplied o)).trans (State.noteApplied_quiet o s)))

theorem State.applyLevel_quiet (o : Order) (s : State) : (s.applyLevel o).quiet = s.quiet :=
  (State.rampLevel_quiet _ _ _).trans (State.noteApplied_quiet o s)

theorem State.takeStart_quiet (o : Order) (s : State) : (s.takeStart o).quiet = s.quiet := by
  simp only [State.takeStart]
  split
  · split
    · exact (State.applyStart_quiet _ _).trans (State.countdownCheck_quiet s)
    · exact (State.declareInapplicable_quiet _ _).trans (State.countdownCheck_quiet s)
  · exact State.declareInapplicable_quiet _ _

theorem State.settleOrder_quiet (o : Order) (s : State) : (s.settleOrder o).quiet = s.quiet := by
  unfold State.settleOrder
  split
  · exact State.takeStart_quiet _ _
  · exact State.applyPause_quiet _ _
  · exact State.applyResume_quiet _ _
  · exact State.applyLevel_quiet _ _
  · exact State.applyLevel_quiet _ _
  · exact State.applyLevel_quiet _ _
  · exact State.declareInapplicable_quiet _ _

theorem State.takeOrder_quiet (o : Order) (s : State) : (s.takeOrder o).quiet = s.quiet := State.settleOrder_quiet o _

theorem State.takeDueOrders_quiet (s : State) : s.takeDueOrders.quiet = s.quiet := by
  unfold State.takeDueOrders; split
  · exact foldl_keeps State.quiet _ (fun b a => State.takeOrder_quiet a b) _ s
  · rfl

/-! ### The peer table -/

theorem State.setPeerState_quiet (j : Station) (p : PeerState) (c : Nat) (s : State) :
    (s.setPeerState j p c).quiet = s.quiet := by
  simp only [State.setPeerState]; split
  · rfl
  · exact State.post_quiet (s.onPeer j _) _ _ _

theorem State.rosterLoss_quiet (j : Station) (c : Cause) (b : Bool) (s : State) : (s.rosterLoss j c b).quiet = s.quiet := by
  have h : ∀ t : State, (if b && !s.rosterComplete then s.reportIncomplete else s) = t → t.quiet = s.quiet := by
    intro t ht; subst ht; split
    · exact State.reportIncomplete_quiet s
    · rfl
  simp only [State.rosterLoss]
  repeat' split
  all_goals first
    | exact h _ rfl
    | exact (State.requestLocal_quiet _ _ _).trans (h _ rfl)
    | exact State.requestLocal_quiet _ _ _
    | exact (State.requestLocal_quiet _ _ _).trans (State.reportIncomplete_quiet s)
    | exact State.reportIncomplete_quiet s
    | rfl

theorem State.movePeer_quiet (j : Station) (p : PeerState) (n : Nat) (c : Cause) (s : State) :
    (s.movePeer j p n c).quiet = s.quiet := by
  simp only [State.movePeer]; split
  · exact (State.rosterLoss_quiet _ _ _ _).trans (State.setPeerState_quiet _ _ _ _)
  · exact State.setPeerState_quiet _ _ _ _

theorem State.reportProfile_quiet (j : Station) (b : Byte) (s : State) : (s.reportProfile j b).quiet = s.quiet := by
  unfold State.reportProfile; split
  · rfl
  · exact State.post_quiet _ _ _ _

theorem State.restartPeer_quiet (j : Station) (b : Byte) (s : State) : (s.restartPeer j b).quiet = s.quiet := by
  simp only [State.restartPeer]; split
  · exact (State.rosterLoss_quiet _ _ _ _).trans ((State.reportProfile_quiet _ _ _).trans (State.setPeerState_quiet j _ 5 _))
  · exact (State.reportProfile_quiet _ _ _).trans (State.setPeerState_quiet j _ 5 _)

theorem State.admit_quiet (j : Station) (b : Byte) (s : State) : (s.admission j b).quiet = s.quiet :=
  (State.reportProfile_quiet _ _ _).trans (State.setPeerState_quiet _ _ _ _)

theorem State.testProfile_quiet (j : Station) (b : Byte) (s : State) : (s.testProfile j b).quiet = s.quiet := by
  simp only [State.testProfile]
  repeat' split
  all_goals first
    | exact State.admit_quiet j b s
    | exact State.restartPeer_quiet j b s
    | rfl

theorem State.recordFrame_quiet (j : Station) (f : Frame) (s : State) : (s.recordFrame j f).quiet = s.quiet := by
  simp only [State.recordFrame]; split
  · exact State.setPeerState_quiet j _ _ (s.onPeer j _)
  · rfl

theorem State.writeWindow_quiet (j : Station) (f : Frame) (s : State) : (s.writeWindow j f).quiet = s.quiet := by
  simp only [State.writeWindow]
  repeat' split
  all_goals rfl

theorem State.skewCheck_quiet (j : Station) (f : Frame) (s : State) : (s.skewCheck j f).quiet = s.quiet := by
  unfold State.skewCheck
  repeat' split
  all_goals first | rfl | exact State.requestLocal_quiet _ _ _

theorem State.takeFrame_quiet (j : Station) (f : Frame) (b : Bool) (s : State) : (s.takeFrame j f b).quiet = s.quiet := by
  simp only [State.takeFrame]
  refine (State.skewCheck_quiet _ _ _).trans ((State.writeWindow_quiet _ _ _).trans
    ((State.recordFrame_quiet _ _ _).trans ((State.testProfile_quiet _ _ _).trans ?_)))
  split
  · exact State.restartPeer_quiet _ _ _
  · rfl

theorem State.countMiss_quiet (j : Station) (s : State) : (s.countMiss j).quiet = s.quiet := by
  simp only [State.countMiss]
  repeat' split
  all_goals first | rfl | exact State.movePeer_quiet _ _ _ _ _

theorem State.takeStepLoss_quiet (j : Station) (s : State) : (s.takeStepLoss j).quiet = s.quiet := by
  unfold State.takeStepLoss; split
  · exact State.movePeer_quiet _ _ _ _ _
  · rfl

theorem State.takeOffset_quiet (j : Station) (o : Int) (s : State) : (s.takeOffset j o).quiet = s.quiet := by
  unfold State.takeOffset; split
  · exact (State.readyTest_quiet _).trans (State.setPeerState_quiet _ _ _ _)
  · rfl

/-! ### The timebase -/

theorem State.computeTrim_quiet (s : State) : s.computeTrim.quiet = s.quiet := by
  simp only [State.computeTrim]
  repeat' split
  all_goals rfl

theorem State.adoptCycle_steady (j : Station) (d : Word) (s : State) : (s.adoptCycle j d).steady = s.steady := by
  unfold State.adoptCycle
  exact (State.steady_of_quiet ((State.post_quiet _ _ _ _).trans (State.bump_quiet _ _))).trans rfl

theorem State.considerAdoption_steady (j : Station) (f : Frame) (x : Stamp) (s : State) :
    (s.considerAdoption j f x).1.steady = s.steady := by
  unfold State.considerAdoption; split
  · exact State.adoptCycle_steady _ _ _
  · rfl

theorem State.recordOffset_quiet (j : Station) (r : Int) (s : State) : (s.recordOffset j r).quiet = s.quiet := by
  simp only [State.recordOffset]; split <;> rfl

theorem State.updateStepRun_quiet (j : Station) (o : Int) (s : State) : (s.updateStepRun j o).quiet = s.quiet := by
  unfold State.updateStepRun
  repeat' split
  all_goals first | rfl | exact State.takeStepLoss_quiet _ _

theorem State.takeTiming_steady (j : Station) (f : Frame) (a : Nat) (x : Stamp) (s : State) :
    (s.takeTiming j f a x).steady = s.steady := by
  simp only [State.takeTiming]; split
  · exact (State.steady_of_quiet ((State.takeOffset_quiet _ _ _).trans
      ((State.updateStepRun_quiet _ _ _).trans (State.recordOffset_quiet _ _ _)))).trans
      (State.considerAdoption_steady j f x s)
  · rfl

/-! ### The ring ports -/

theorem State.emptyQueue_quiet (l : Lane) (s : State) : (s.emptyQueue l).quiet = s.quiet := by
  unfold State.emptyQueue
  refine Eq.trans rfl (foldl_keeps State.quiet _ (fun b a => ?_) (s.lane l).queue s)
  cases a <;> rfl

theorem State.setSide_quiet (d : Side) (x : SideState) (c : Nat) (s : State) : (s.setSide d x c).quiet = s.quiet :=
  State.post_quiet _ _ _ _

theorem State.sideDown_quiet (d : Side) (c : Nat) (s : State) : (s.sideDown d c).quiet = s.quiet := by
  refine (State.isolatedTest_quiet _).trans ?_
  split
  · exact (State.emptyQueue_quiet _ _).trans (State.setSide_quiet d .down c s)
  · exact State.setSide_quiet d .down c s

theorem State.tryTraining_quiet (d : Side) (s : State) : (s.tryTraining d).quiet = s.quiet := by
  simp only [State.tryTraining]; split
  · exact State.setSide_quiet d .training 1 s
  · rfl

theorem State.retrain_quiet (d : Side) (c : Nat) (s : State) : (s.retrain d c).quiet = s.quiet :=
  (State.emptyQueue_quiet _ _).trans (State.setSide_quiet d .training c s)

theorem State.cleanWord_quiet (d : Side) (s : State) : (s.cleanWord d).quiet = s.quiet := by
  simp only [State.cleanWord]; split
  · exact State.setSide_quiet d .up 2 (s.onSide d _)
  · rfl

theorem State.takeLaneWord_quiet (d : Side) (p f c : Byte) (s : State) : (s.takeLaneWord d p f c).quiet = s.quiet := by
  simp only [State.takeLaneWord]
  repeat' split
  all_goals first | rfl | exact State.cleanWord_quiet _ _ | exact State.retrain_quiet _ _ _

theorem State.badFrame_quiet (d : Side) (s : State) : (s.badFrame d).quiet = s.quiet := by
  simp only [State.badFrame]; split
  · exact State.sideDown_quiet d 4 _
  · rfl

theorem State.deliver_steady (l : Lane) (f : Frame) (x : Stamp) (s : State) : (s.deliver l f x).steady = s.steady := by
  unfold State.deliver; split <;> rfl

theorem State.forward_quiet (l : Lane) (f : Frame) (x : Stamp) (s : State) : (s.forward l f x).quiet = s.quiet := by
  unfold State.forward
  repeat' split
  all_goals rfl

theorem State.ownReturn_quiet (l : Lane) (f : Frame) (s : State) : (s.ownReturn l f).quiet = s.quiet := by
  simp only [State.ownReturn]; split
  · rfl
  · exact State.post_quiet _ _ _ _

theorem State.goodFrame_steady (l : Lane) (f : Frame) (x : Stamp) (s : State) : (s.goodFrame l f x).steady = s.steady := by
  simp only [State.goodFrame]
  repeat' split
  · exact State.steady_of_quiet (State.ownReturn_quiet _ _ _)
  · exact State.deliver_steady _ _ _ _
  · exact (State.deliver_steady _ _ _ _).trans (State.steady_of_quiet (State.forward_quiet _ _ _ _))

theorem State.takeArrival_steady (l : Lane) (c : Bool) (b : List Byte) (s : State) :
    (s.takeArrival l c b).steady = s.steady := by
  simp only [State.takeArrival]
  repeat' split
  all_goals first
    | rfl
    | exact State.goodFrame_steady _ _ _ _
    | exact State.steady_of_quiet (State.badFrame_quiet _ _)

theorem State.startTransmission_quiet (l : Lane) (s : State) : (s.startTransmission l).quiet = s.quiet := by
  unfold State.startTransmission
  repeat' split
  all_goals rfl

theorem State.examineLane_quiet (l : Lane) (s : State) : (s.examineLane l).quiet = s.quiet := by
  simp only [State.examineLane]
  repeat' split
  all_goals first | rfl | exact State.post_quiet _ _ _ _

theorem State.examineLanes_quiet (s : State) : s.examineLanes.quiet = s.quiet := by
  unfold State.examineLanes; split
  · exact (State.examineLane_quiet _ _).trans (State.examineLane_quiet _ _)
  · rfl

theorem State.placeOwn_quiet (f : Frame) (l : Lane) (s : State) : (s.placeOwn f l).quiet = s.quiet := by
  simp only [State.placeOwn]
  repeat' split
  all_goals rfl

theorem State.buildFrame_quiet (s : State) : s.buildFrame.quiet = s.quiet := by
  unfold State.buildFrame; split
  · exact (State.placeOwn_quiet _ _ _).trans (State.placeOwn_quiet _ _ _)
  · rfl

/-! ### Acceptance -/

theorem State.takeStopPart_quiet (j : Station) (f : Frame) (s : State) : (s.takeStopPart j f).quiet = s.quiet := by
  simp only [State.takeStopPart]; split
  · exact State.request_quiet _ _
  · rfl

theorem State.handOver_steady (j : Station) (c : Copy) (b : Bool) (s : State) : (s.handOver j c b).steady = s.steady :=
  (State.steady_of_quiet ((State.takeStopPart_quiet _ _ _).trans (State.takeOrderPart_quiet _ _ _))).trans
    ((State.takeTiming_steady _ _ _ _ _).trans (State.steady_of_quiet (State.takeFrame_quiet _ _ _ s)))

theorem State.reportPath_quiet (j : Station) (e : FilterEntry) (s : State) : (s.reportPath j e).quiet = s.quiet := by
  unfold State.reportPath; split
  · exact State.post_quiet (s.bring .pathDegraded) _ _ _
  · rfl

theorem State.countGap_quiet (d : Nat) (s : State) : (s.countGap d).quiet = s.quiet := by
  unfold State.countGap; split <;> rfl

theorem State.acceptNewer_steady (j : Station) (c : Copy) (e : FilterEntry) (d : Nat) (s : State) :
    (s.acceptNewer j c e d).steady = s.steady :=
  (State.handOver_steady _ _ _ _).trans
    ((State.steady_of_quiet (State.bump_quiet _ _)).trans
      (Eq.trans (b := ((s.reportPath j e).countGap d).steady) rfl
        (State.steady_of_quiet ((State.countGap_quiet _ _).trans (State.reportPath_quiet _ _ _)))))

theorem State.judge_steady (j : Station) (c : Copy) (s : State) : (s.judge j c).steady = s.steady := by
  simp only [State.judge]
  split
  · exact (State.handOver_steady _ _ _ _).trans rfl
  split
  · unfold State.discardEqual; split <;> rfl
  split
  · exact State.acceptNewer_steady _ _ _ _ _
  · unfold State.takeStale; split
    · rfl
    · exact (State.handOver_steady _ _ _ _).trans rfl

theorem State.takeCopy_steady (c : Copy) (s : State) : (s.takeCopy c).steady = s.steady := by
  unfold State.takeCopy; split
  · rfl
  · exact State.judge_steady _ _ _

theorem State.takeWaiting_steady (n : Nat) (s : State) : (s.takeWaiting n).steady = s.steady := by
  unfold State.takeWaiting; split
  · rfl
  · exact State.takeCopy_steady _ _

/-! ### Boundaries and instants -/

theorem State.checkRange_quiet (s : State) : s.checkRange.quiet = s.quiet := by
  simp only [State.checkRange]
  repeat' split
  all_goals first | rfl | exact State.requestLocal_quiet _ _ _

theorem State.checkLoss_quiet (s : State) : s.checkLoss.quiet = s.quiet := by
  unfold State.checkLoss; split
  · exact State.requestLocal_quiet _ _ _
  · rfl

theorem State.checkFeedback_quiet (s : State) : s.checkFeedback.quiet = s.quiet := by
  unfold State.checkFeedback; split
  · exact (State.checkLoss_quiet _).trans (State.checkRange_quiet _)
  · rfl

/-- No act of a boundary touches a quiet part. -/
theorem State.act_quiet (s : State) (a : BoundaryAction) : (s.act a).quiet = s.quiet := by
  cases a
  · exact State.checkFeedback_quiet s
  · exact State.stepRamps_quiet s
  · exact State.assemblyTest_quiet s
  · exact State.countdownCheck_quiet s
  · exact State.takeDueOrders_quiet s
  · exact State.computeTrim_quiet s
  · exact State.countMiss_quiet _ s
  · exact State.examineLanes_quiet s
  · exact State.isolatedTest_quiet s
  · exact State.buildFrame_quiet s

theorem State.countPulse_quiet (s : State) : s.countPulse.quiet = s.quiet := by
  unfold State.countPulse
  repeat' split
  all_goals rfl

/-- A boundary leaves the quiet parts as the opening of the cycle and the latch left them. -/
theorem State.boundary_quiet (first : List BoundaryAction) (s : State) :
    (s.boundary first).quiet = s.openCycle.latchFeedback.quiet :=
  (foldl_keeps State.quiet State.act State.act_quiet _ _).trans (State.countPulse_quiet _)

theorem State.runMarker_quiet (k : Nat) (m : MarkerSlot) (r : PosRecord) (s : State) :
    (s.runMarker k m r).quiet = s.quiet := by
  unfold State.runMarker
  repeat' split
  all_goals first | rfl | exact State.originate_quiet _ _ _ _ | exact State.post_quiet _ _ _ _

theorem State.evaluateMarkers_quiet (r : PosRecord) (s : State) : (s.evaluateMarkers r).quiet = s.quiet := by
  unfold State.evaluateMarkers
  refine foldl_keeps State.quiet _ (fun b a => ?_) _ s
  split
  · exact (State.runMarker_quiet _ _ _ _).trans (State.post_quiet _ _ _ _)
  · rfl

/-- No report of an instant touches a quiet part. -/
theorem State.report_quiet (f : InstantFacts) (s : State) (r : InstantReport) : (s.report f r).quiet = s.quiet := by
  cases r <;> simp only [State.report]
  all_goals repeat' split
  all_goals first
    | rfl
    | exact State.post_quiet _ _ _ _
    | exact (State.requestLocal_quiet _ _ _).trans (State.post_quiet _ _ _ _)
    | exact State.requestLocal_quiet _ _ _
    | exact State.evaluateMarkers_quiet _ _

end Sys2Proof.Machine
end

