-- ==== Sys2Proof/Laws/Store.lean ====
section
/-! SUPPORT. The laws of word memories: the canonical form is kept, a read after a write gives the word written, and a write leaves
every other word. -/

namespace Sys2Proof.Machine

theorem Words.wf_nil : Words.wf [] := ⟨List.Pairwise.nil, fun _ h => absurd h List.not_mem_nil⟩

theorem Words.wf_tail {c : Nat × Half} {m : Words} (h : Words.wf (c :: m)) : Words.wf m :=
  ⟨(List.pairwise_cons.mp h.1).2, fun x hx => h.2 x (List.mem_cons_of_mem c hx)⟩

/-- Every address that a write lists was listed or is the one written. -/
theorem Words.mem_write {m : Words} {a : Nat} {v : Half} {c : Nat × Half} (h : c ∈ m.write a v) :
    c ∈ m ∨ (c.1 = a ∧ c.2 = v ∧ v ≠ 0) := by
  induction m with
  | nil =>
    unfold Words.write at h
    split at h
    · exact absurd h List.not_mem_nil
    · rename_i hv
      rw [List.mem_singleton] at h
      subst h
      exact .inr ⟨rfl, rfl, hv⟩
  | cons x m ih =>
    obtain ⟨b, u⟩ := x
    unfold Words.write at h
    split at h
    · split at h
      · exact .inl h
      · rename_i hv
        rcases List.mem_cons.mp h with rfl | h
        · exact .inr ⟨rfl, rfl, hv⟩
        · exact .inl h
    · split at h
      · split at h
        · exact .inl (List.mem_cons_of_mem _ h)
        · rename_i hv
          rcases List.mem_cons.mp h with rfl | h
          · exact .inr ⟨rfl, rfl, hv⟩
          · exact .inl (List.mem_cons_of_mem _ h)
      · rcases List.mem_cons.mp h with rfl | h
        · exact .inl List.mem_cons_self
        · exact (ih h).imp (List.mem_cons_of_mem _) id

/-- A write keeps the canonical form. -/
theorem Words.write_wf {m : Words} (h : m.wf) (a : Nat) (v : Half) : (m.write a v).wf := by
  induction m with
  | nil =>
    unfold Words.write
    split
    · exact Words.wf_nil
    · rename_i hv
      exact ⟨List.pairwise_singleton _ _, fun c hc => by rw [List.mem_singleton] at hc; subst hc; exact hv⟩
  | cons x m ih =>
    obtain ⟨b, u⟩ := x
    have hp := List.pairwise_cons.mp h.1
    have ht := Words.wf_tail h
    unfold Words.write
    split
    · rename_i hab
      split
      · exact h
      · rename_i hv
        refine ⟨List.pairwise_cons.mpr ⟨fun c hc => ?_, h.1⟩, fun c hc => ?_⟩
        · rcases List.mem_cons.mp hc with rfl | hc
          · exact hab
          · exact Nat.lt_trans hab (hp.1 c hc)
        · rcases List.mem_cons.mp hc with rfl | hc
          · exact hv
          · exact h.2 c hc
    · split
      · rename_i hab
        subst hab
        split
        · exact ht
        · rename_i hv
          refine ⟨List.pairwise_cons.mpr ⟨fun c hc => hp.1 c hc, ht.1⟩, fun c hc => ?_⟩
          rcases List.mem_cons.mp hc with rfl | hc
          · exact hv
          · exact ht.2 c hc
      · rename_i hlt hne
        refine ⟨List.pairwise_cons.mpr ⟨fun c hc => ?_, (ih ht).1⟩, fun c hc => ?_⟩
        · rcases Words.mem_write hc with hc | ⟨hc, -, -⟩
          · exact hp.1 c hc
          · show b < c.1
            omega
        · rcases List.mem_cons.mp hc with rfl | hc
          · exact h.2 _ List.mem_cons_self
          · exact (ih ht).2 c hc

/-- Consecutive writes keep the canonical form. -/
theorem Words.writeAll_wf {m : Words} (h : m.wf) (a : Nat) (vs : List Half) : (m.writeAll a vs).wf := by
  induction vs generalizing m a with
  | nil => exact h
  | cons v vs ih => exact ih (Words.write_wf h a v) (a + 1)

/-- An address below every listed one reads 0. -/
theorem Words.read_of_lt {m : Words} {a : Nat} (h : ∀ c ∈ m, a < c.1) : m.read a = 0 := by
  induction m with
  | nil => rfl
  | cons x m ih =>
    have hx : a < x.1 := h x List.mem_cons_self
    have : x.1 ≠ a := by omega
    simp only [Words.read, this, if_false]
    exact ih fun c hc => h c (List.mem_cons_of_mem _ hc)

/-- A read of the word written gives it. -/
theorem Words.read_write_same {m : Words} (h : m.wf) (a : Nat) (v : Half) : (m.write a v).read a = v := by
  induction m with
  | nil =>
    unfold Words.write
    split
    · rename_i hv; exact hv.symm
    · simp [Words.read]
  | cons x m ih =>
    obtain ⟨b, u⟩ := x
    have hp := List.pairwise_cons.mp h.1
    unfold Words.write
    split
    · rename_i hab
      split
      · rename_i hv
        rw [hv]
        refine Words.read_of_lt fun c hc => ?_
        rcases List.mem_cons.mp hc with rfl | hc
        · exact hab
        · exact Nat.lt_trans hab (hp.1 c hc)
      · simp [Words.read]
    · split
      · rename_i hab
        subst hab
        split
        · rename_i hv
          rw [hv]
          exact Words.read_of_lt fun c hc => hp.1 c hc
        · simp [Words.read]
      · rename_i hlt hne
        have : b ≠ a := by omega
        simp only [Words.read, this, if_false]
        exact ih (Words.wf_tail h)

/-- A write leaves every other word. -/
theorem Words.read_write_other (m : Words) {a b : Nat} (v : Half) (h : b ≠ a) : (m.write a v).read b = m.read b := by
  induction m with
  | nil =>
    unfold Words.write
    split
    · rfl
    · simp [Words.read, Ne.symm h]
  | cons x m ih =>
    obtain ⟨c, u⟩ := x
    unfold Words.write
    split
    · split
      · rfl
      · simp [Words.read, Ne.symm h]
    · split
      · rename_i hac
        subst hac
        split
        · simp [Words.read, Ne.symm h]
        · simp [Words.read, Ne.symm h]
      · simp only [Words.read, ih]

/-- Consecutive writes leave every word outside them. -/
theorem Words.read_writeAll_outside (m : Words) (a b : Nat) (vs : List Half) (h : b < a ∨ a + vs.length ≤ b) :
    (m.writeAll a vs).read b = m.read b := by
  induction vs generalizing m a with
  | nil => rfl
  | cons v vs ih =>
    rw [List.length_cons] at h
    have hb : b ≠ a := by omega
    exact (ih (m.write a v) (a + 1) (by omega)).trans (Words.read_write_other m v hb)

/-- Consecutive writes put each word at its place. -/
theorem Words.read_writeAll_inside {m : Words} (h : m.wf) (a k : Nat) (vs : List Half) (hk : k < vs.length) :
    (m.writeAll a vs).read (a + k) = vs[k] := by
  induction vs generalizing m a k with
  | nil => exact absurd hk (Nat.not_lt_zero k)
  | cons v vs ih =>
    cases k with
    | zero =>
      exact (Words.read_writeAll_outside _ (a + 1) a vs (.inl (Nat.lt_succ_self a))).trans (Words.read_write_same h a v)
    | succ k =>
      rw [List.length_cons] at hk
      have e : a + (k + 1) = a + 1 + k := by omega
      rw [e]
      exact ih (Words.write_wf h a v) (a + 1) k (by omega)

@[simp] theorem Words.readAll_length (m : Words) (a n : Nat) : (m.readAll a n).length = n := by
  induction n generalizing a with
  | zero => rfl
  | succ n ih => exact congrArg (· + 1) (ih (a + 1))

/-- Consecutive reads give each word of the span. -/
theorem Words.getElem_readAll (m : Words) (a n k : Nat) (h : k < (m.readAll a n).length) :
    (m.readAll a n)[k] = m.read (a + k) := by
  induction n generalizing a k with
  | zero => exact absurd h (Nat.not_lt_zero k)
  | succ n ih =>
    cases k with
    | zero => rfl
    | succ k =>
      have e : a + (k + 1) = a + 1 + k := by omega
      have hk : k < (m.readAll (a + 1) n).length := by
        rw [Words.readAll_length] at h ⊢
        omega
      show (m.readAll (a + 1) n)[k] = _
      rw [ih (a + 1) k hk, e]

end Sys2Proof.Machine
end

