-- ==== Sys2Proof/WellFormed.lean ====
section
/-! DEFINITION. Which commands the environment can send: the limits that the spec's own layouts put on their operands. exec is
total and gives every command a meaning, well formed or not. -/

namespace Sys2Proof

/-- The argument words of a command transaction: 0 to 131 (R196). -/
def argsFit (args : List Word) : Bool := decide (args.length ≤ 131)

/-- The event that falls together with a STOP names no act and no report twice. -/
def Together.wellFormed : Together → Bool
  | .boundary first => decide first.Nodup
  | .instant first => decide first.Nodup
  | _ => true

/-- The operand limits: at most 131 argument words (R196), a malformed transaction that is malformed (R197), and an order list
without repeats. -/
def Instr.wellFormed : Instr → Bool
  | .cycleBoundary first => decide first.Nodup
  | .feedbackLoss first => decide first.Nodup
  | .rampEndReport first => decide first.Nodup
  | .assemblyComplete first => decide first.Nodup
  | .peerSilent first _ => decide first.Nodup
  | .ringOpen first _ => decide first.Nodup
  | .markerPulseEnd first => decide first.Nodup
  | .outputInstant first => decide first.Nodup
  | .peerLate first _ => decide first.Nodup
  | .malformedTransaction _ bytes => malformed bytes
  | .stop _ arrival => argsFit arrival.words && (arrival.ahead.map Together.wellFormed).getD true
  | i =>
    match i.command? with
    | some (_, _, args) => argsFit args
    | none => true

end Sys2Proof
end

