-- ==== Sys2Proof/Tests/Slice0.lean ====
section
/-! SUPPORT. Tests: the checks of WellFormed, worked examples of the spec, and for each statement that has hypotheses a state and
operands that meet them. -/

namespace Sys2Proof.Tests

open Sys2Proof Sys2Proof.Machine

/-! ### Well-formedness refuses what the environment cannot send -/

theorem test_wf_refuses_132_arguments : (Instr.getStatus 0 (List.replicate 132 0)).wellFormed = false := by
  decide +kernel

theorem test_wf_takes_131_arguments : (Instr.getStatus 0 (List.replicate 131 0)).wellFormed = true := by
  decide +kernel

theorem test_wf_refuses_malformed_of_good_form :
    (Instr.malformedTransaction false (transaction 1 7 [])).wellFormed = false := by decide

theorem test_wf_refuses_malformed_read_reply : (Instr.malformedTransaction false [0, 1]).wellFormed = false := by decide

theorem test_wf_takes_unknown_command : (Instr.malformedTransaction false [21]).wellFormed = true := by decide

theorem test_wf_refuses_repeated_act : (Instr.cycleBoundary [.trim, .trim]).wellFormed = false := by decide

theorem test_wf_refuses_repeated_act_ahead_of_a_stop :
    (Instr.stop 0 { words := [], ahead := some (.boundary [.trim, .trim]) }).wellFormed = false := by decide

theorem test_wf_refuses_repeated_report : (Instr.peerLate [.markers, .markers] 3).wellFormed = false := by decide

/-! ### Worked examples of the spec -/

/-- Section 1.9: m1, m and b. -/
theorem test_factor_worked_example : combinedFactor 32768 29491 16384 = 14746 ∧ baseTerm 12000 36045 14746 = 1520690 := by
  decide

/-- Section 1.9: the two terms of the coupling. -/
theorem test_terms_worked_example : couplingTerm (-2458) 1310720 = -98320 ∧ couplingTerm 983 (-655360) = -19660 := by decide

/-- Section 1.9: limits and rounding, from P = 1,390,000 and a residual of 93. -/
theorem test_compute_worked_example :
    (Drive.compute { Items.reset with cmdMin := -30000, cmdMax := 30000, slewMax := 10000 } 1402710
        { Drive.reset with prev := 1390000, residual := 93 }) =
      { Drive.reset with prev := 1400000, residual := 29, code := 5469, slewFlag := true, strobes := 1 } := by decide

/-- Section 1.10: a level ramp from 29491 to 16384 over 5, and its replacement from 24248 to 32768 over 2. -/
theorem test_ramp_worked_example :
    (⟨29491, 16384, 5, 0⟩ : Ramp).value 1 = 26870 ∧ (⟨29491, 16384, 5, 0⟩ : Ramp).value 2 = 24248 ∧
      (⟨24248, 32768, 2, 0⟩ : Ramp).value 1 = 28508 := by decide

/-- Section 1.12: the release from TRIPPED, instants 3 and 4. -/
theorem test_release_worked_example :
    (Drive.compute { Items.reset with slewMax := 1000000 } 0 { Drive.reset with prev := 3000000, residual := 0 }).code = 7813 ∧
    (Drive.compute { Items.reset with slewMax := 1000000 } 0 { Drive.reset with prev := 2000000, residual := -128 }).code = 3906 := by
  decide

/-- R192's CRC is that of IEEE 802.3: its check value over the nine digits sent most significant bit first (a known value of the
unreflected variant, preset and complemented). -/
theorem test_crc_check_value : crc32 [0x31, 0x32, 0x33, 0x34, 0x35, 0x36, 0x37, 0x38, 0x39] = 0xFC891918 := by
  decide +kernel

/-- R196, R197: GET STATUS with tag 5, its four bytes and its reading. -/
theorem test_transaction_bytes :
    transaction 1 5 [] = [1, 5, 0, 0xFB] ∧ readTransaction [1, 5, 0, 0xFB] = some (.getStatus 5 []) := by decide

/-- R123 at an OutputPhase lowered below the phase that stands: the instant is one edge away, not at this edge. -/
theorem test_lowered_output_phase_waits_for_the_next_edge :
    ({ State.reset with time := { Time.reset with acc := 4000000000 } } : State).edgesToInstant = 1 := by decide +kernel

/-- R89 and R62: a STOP taken in RUN is answered OK although the loss of servo-ready that falls together with it trips the node. -/
theorem test_stop_behind_a_trip_is_answered_ok :
    let s : State := { State.reset with
      run := { Run.reset with state := .run }, servo := { Servo.reset with ready := true } }
    ∃ t, exec (.stop 5 { words := [], ahead := some (.servoReady false) }) s = .next t ∧ t.run.state = .tripped ∧
      t.port.reply = some ⟨5, 15, .ok, []⟩ := ⟨_, rfl, by decide +kernel⟩

/-! ### States for the witnesses -/

/-- The reset machine in a run state. -/
def inRun (r : RunState) : State := { State.reset with run := { Run.reset with state := r } }

/-- The output instant of the cycle has been taken. -/
def marked (s : State) : State := { s with time := { s.time with mark := true } }

/-- A servo side with servo-ready asserted and no new sample. -/
def staleServo : Servo := { Servo.reset with ready := true, staleRun := 2 }

/-- An expected group peer. -/
def groupPeer (x : PeerState) : Peer := { Peer.reset with state := x, expected := true, shares := true, profileMatch := true }

/-- A servo side with servo-ready asserted and a new sample. -/
def freshServo (x : Int) : Servo := { Servo.reset with ready := true, fresh := true, latest := some x }

/-- A state with station 2 (place 1) as an expected group peer of the node, station 1. -/
def withPeer (x : PeerState) (s : State) : State :=
  { s with
    port := { s.port with items := { s.port.items with station := 1, roster := 2, domain := 1 } }
    peers := put s.peers 1 (groupPeer x) }

/-- An entry of three samples played twice. -/
def segment : Entry :=
  { tag := 7, startPage := 8190, length := 3, repeats := 2, gain := 32768, fadeIn := 0, fadeOut := 0, shape := 0 }

/-- The machine in a run state with one entry at a position. -/
def atPosition (r : RunState) (rep offset : Nat) : State :=
  { inRun r with sched := { Sched.reset with queue := [segment], head := some { rep := rep, offset := offset, start := 0 } } }

/-- A frame of station 2 with a cycle count. -/
def frameOf (c : Word) : Frame :=
  { source := 2, profile := 0x12, hops := 15, runState := 5, cycle := c, sendPhase := 0, age := 0, domain := 1, flags := 0,
    tag := 0, rep := 0, replay := 0, feedback := 0, stopOrigin := 0, stopReason := 0, orderKind := 0, orderEpoch := 0,
    orderOrigin := 0, orderDomain := 0, effective := 0, argA := 0, argB := 0, highest := 0 }

/-- A copy of station 2's frame. -/
def copyOf (c : Word) : Copy := { frame := frameOf c, lane := .a, age := 65534, stamp := { cycle := 0, phase := 0 } }

/-- The running machine with one copy waiting and an entry of the filter for its station. -/
def withCopy (c : Word) (e : FilterEntry) : State :=
  { State.reset with waiting := [copyOf c], filter := put State.reset.filter 1 e }

/-- A valid filter entry. -/
def validEntry (last : Half) (a b : Bool) (stale single : Nat) : FilterEntry :=
  { valid := true, last := last, onA := a, onB := b, staleRun := stale, singleRun := single }

/-- An order of a kind from station 2, due at cycle 1. -/
def orderOf (k : OrderKind) (a : Nat) : Order :=
  { kind := k, epoch := 1, origin := 2, domain := 1, effective := 1, a := a, b := 32768 }

/-- The machine in a run state with a due order and one that is not due. -/
def withOrder (r : RunState) (o : Order) : State :=
  { inRun r with
    run := { Run.reset with state := r, countdown := if r = .countdown then some o.id else none }
    orders := { Orders.reset with pending := [o, { o with epoch := 9, effective := 2 }] } }

/-- A side in a state. -/
def sideIn (x : SideState) (words fails : Nat) : SideRec :=
  { SideRec.reset with state := x, signal := true, hold := 0, words := words, fails := fails }

/-- The machine with both sides in a state. -/
def onRing (x : SideState) (words fails : Nat) (s : State) : State :=
  { s with ring := { s.ring with west := sideIn x words fails, east := sideIn x words fails } }

/-! ### The hypotheses of each statement can be met -/

theorem witness_front_command : ({ State.reset with pending := [.powerLoss] } : State).pending = .powerLoss :: [] := rfl

theorem witness_inert_command : ({ State.reset with cond := .inReset } : State).cond ≠ .running ∧
    Instr.cycleBoundary [] ≠ .powerOnReset ∧ Instr.cycleBoundary [] ≠ .resetRelease := by decide

/-- A chunk of two words under way over an old word. -/
theorem witness_cut_chunk :
    let s : State := { State.reset with
      store := [(9, 1)], arb := { serving := some .supervisor, chunk := some (.write 9 [5, 6]) } }
    s.store.wf ∧ s.arb.serving = some .supervisor ∧ s.arb.chunk = some (.write 9 [5, 6]) := by decide

theorem witness_reset_node : State.reset.takesCommands ∧
    ({ State.reset with port := { Port.reset with resetPending := some .replyBegun } } : State).port.resetPending ≠ none ∧
    ({ State.reset with cond := .nodeReset 1 } : State).cond = .nodeReset 1 := by
  refine ⟨⟨rfl, rfl⟩, by decide, rfl⟩

theorem witness_lines : ({ State.reset with cond := .unpowered } : State).cond = .unpowered ∧
    ({ State.reset with cond := .inReset } : State).cond = .inReset ∧ State.reset.cond = .running := ⟨rfl, rfl, rfl⟩

/-- The last edge before a boundary. -/
theorem witness_clock_edge :
    let s : State := { State.reset with time := { Time.reset with acc := 4294615451, mark := true } }
    s.pending = [] ∧ s.scratch = .rest ∧ s.port.resetPending = none ∧ s.ring.west.hold ≠ 1 ∧ s.ring.east.hold ≠ 1 ∧
      s.time.acc.toNat + s.increment = 4294967295 ∧ s.time.mark = true := by decide

theorem witness_boundary : State.reset.cond = .running ∧ State.reset.time.mark = false ∧ (marked State.reset).time.mark = true ∧
    State.reset.scratch = .rest ∧
    ({ Time.reset with trim := -127 } : Time).trim ≥ -127 ∧ ({ Time.reset with trim := 127 } : Time).trim ≤ 127 := by decide

theorem witness_feedback_loss :
    let s := marked { inRun .run with servo := staleServo }
    s.time.mark = true ∧ s.run.state ≠ .offline ∧ s.run.state ≠ .tripped ∧ s.servo.ready = true ∧ s.servo.fresh = false ∧
      s.items.staleLimit = min 255 (s.servo.staleRun + 1) := by decide

/-- The last step of the descent, the new sample at either end of its range; and the last step of a PAUSE ramp. -/
theorem witness_descent_end :
    (∀ x ∈ [Items.reset.fbMin, Items.reset.fbMax],
      let s := marked { inRun .stopping with
        drive := { Drive.reset with ramp := 512, runRamp := some .descent }, servo := freshServo x }
      s.time.mark = true ∧ s.run.state = .stopping ∧ s.drive.runRamp = some .descent ∧ s.drive.ramp = s.items.stopStep ∧
        0 < s.items.staleLimit ∧ s.servo.fresh = true ∧ s.items.fbMin ≤ s.servo.latest.getD 0 ∧
        s.servo.latest.getD 0 ≤ s.items.fbMax ∧ ¬ s.cutOff) ∧
    (let s : State := marked { inRun .pausing with
        drive := { Drive.reset with ramp := 1, runRamp := some (.ramp ⟨32768, 0, 3, 2⟩) }, servo := freshServo 0
        orders := { Orders.reset with pending := [{ orderOf .level 1 with effective := 2 }] } }
     s.calm ∧ s.servo.ready = true ∧ s.run.state = .pausing ∧ (⟨32768, 0, 3, 2⟩ : Ramp).target = 0 ∧
       ∀ o ∈ s.orders.pending, later o.effective (s.time.cycle + 1) = true) := by
  unfold State.calm State.cutOff State.atMissLimit; decide +kernel

theorem witness_assembly :
    let s := marked { State.reset with run := { Run.reset with state := .assembly, assembly := 15 } }
    s.time.mark = true ∧ s.run.assembly = 15 ∧ s.rosterComplete = true ∧ s.servo.ready = false ∧
      ∀ j, (s.peer j).state ≠ .active := by decide

/-- A group peer of a node in RUN with its fourth cycle without a frame. -/
theorem witness_miss_limit :
    let s := marked { inRun .run with peers := put State.reset.peers 1 { groupPeer .active with cycles := 4 } }
    s.time.mark = true ∧ (s.peer 1).state = .active ∧ s.items.missLimit + 1 = min 255 ((s.peer 1).cycles + 1) ∧
      (s.peer 1).shares = true := by
  decide

theorem witness_lane_opens :
    let s := marked { inRun .run with ring := { Ring.reset with a := { LaneRec.reset with closed := true, misses := 3 } } }
    s.time.mark = true ∧ s.run.state ≠ .offline ∧ (s.lane .a).returned = false ∧ (s.lane .a).misses = 3 ∧
      (s.lane .a).closed = true := by decide

theorem witness_pulse_end : ({ Sched.reset with mark := true, pulse := 1 } : Sched).pulse = 1 := rfl

theorem witness_own_frame : let s := marked (onRing .up 8 0 (inRun .ready))
    s.time.mark = true ∧ s.run.state ≠ .offline ∧ (s.side Lane.a.outSide).state = .up ∧
      (s.side Lane.b.outSide).state = .up := by decide

theorem witness_instant_at_rest :
    (∀ r ∈ [RunState.offline, .assembly, .standby, .ready, .countdown, .stopped, .tripped],
      (inRun r).cond = .running ∧ (inRun r).time.mark = false ∧ (inRun r).drive.apply = .none ∧
        (inRun r).run.state.playing = false ∧ (inRun r).run.state ≠ .paused) ∧
    ({ Time.reset with mark := true } : Time).mark = true := by decide

/-- Positions within a repeat, at the end of one, and at the end of the schedule. -/
theorem witness_positions :
    (∀ r ∈ [RunState.run, .pausing, .stopping], (inRun r).run.state.playing = true ∧ (inRun r).time.mark = false) ∧
    (atPosition .run 2 2).sched.queue = [segment] ∧ (atPosition .run 2 2).drive.apply = .none ∧
    1 + 1 < segment.length ∧ segment.length ≤ 2 + 1 ∧ 1 < segment.repeats ∧ segment.repeats ≤ 2 := by decide

/-- An offset-0 position whose record hits slot 0 alone, by key and mask, for each action; with an order carried and without; and
with no slot enabled. -/
theorem witness_markers :
    let r : PosRecord := { tag := 7, rep := 2 }
    (∀ x ∈ [MarkerAction.pulse, .pause, .note],
      let m : MarkerSlot :=
        { enable := true, action := x, keyTag := 7, tagMask := 0, keyRepeat := 0, repeatMask := 2 }
      let s := (atPosition .run 2 0).withItems { Items.reset with slot0 := m }
      m.hits r = true ∧ s.items.slots.filter (fun y => y.2.hits r) = [(0, m)] ∧ s.run.state = .run ∧
        s.sched.head = some ⟨2, 0, 0⟩ ∧ s.orders.carried = none ∧ s.orders.pending.length < 4 ∧ s.port.events.length ≤ 30) ∧
    ({ Orders.reset with carried := some 1 } : Orders).carried ≠ none ∧
    (∀ m ∈ [Items.reset.slot0, Items.reset.slot1, Items.reset.slot2, Items.reset.slot3], m.hits r = false) := by decide

/-- An instant of a playing state without a head, one in PAUSED, and the first and the last position of a fade and those beside
them. -/
theorem witness_drive_value :
    (inRun .stopping).run.state.playing = true ∧ (inRun .stopping).sched.head = none ∧ (inRun .stopping).time.mark = false ∧
    (inRun .stopping).drive.apply = .none ∧ (inRun .paused).run.state = .paused ∧
    (let e := { segment with length := 10, fadeIn := 4, fadeOut := 3 }
     e.inRanges ∧ 0 < e.fadeIn ∧ 3 < e.fadeIn ∧ ¬ 4 < e.fadeIn ∧ ¬ e.length - e.fadeOut ≤ 6 ∧ e.length - e.fadeOut ≤ 7 ∧
       9 < e.length ∧ 1 ≤ e.repeats) := by
  unfold Entry.inRanges; decide +kernel

theorem witness_late_peer :
    let s := { withPeer .active (inRun .paused) with
      drive := { Drive.reset with active := put Drive.reset.active 1 1 }
      peers := put State.reset.peers 1 { groupPeer .active with holdRun := 2, window := [⟨0, 5, true⟩] } }
    s.run.state = .paused ∧ s.drive.apply = .none ∧ stationNumber 1 ≠ s.items.station ∧ s.drive.active.get 1 ≠ 0 ∧
      (s.peer 1).window ≠ [] ∧ (∀ x ∈ (s.peer 1).window, x.index = s.sched.replay → x.stale = true) ∧
      s.items.holdLimit + 1 = min 255 ((s.peer 1).holdRun + 1) := by decide

/-- A window with a record at 4, below it and above it, for the targets 4, 5, 3. -/
theorem witness_window :
    let w : List WindowRecord := [⟨4, 1, false⟩, ⟨6, 2, true⟩]
    w.Pairwise (fun x y => x.index.toNat < y.index.toNat) ∧ (∃ x ∈ w, x.index.toNat = 4 ∧ x.stale = false) ∧
      (∃ x ∈ w, x.index.toNat = 6 ∧ x.stale = true) ∧ (∃ x ∈ w, x.index.toNat < 5) ∧ (∀ y ∈ w, y.index.toNat ≠ 5) ∧
      (∀ y ∈ w, 3 < y.index.toNat) := by decide

theorem witness_coupling_sum :
    let s := withPeer .active (inRun .run)
    s.items.station = 1 ∧ (∀ j : Station, -32768 ≤ s.drive.active.get j ∧ s.drive.active.get j ≤ 32767) ∧
      (∀ j : Station, (s.peer j).window = []) := by decide

theorem witness_items_in_ranges : Items.reset.inRanges ∧ Items.reset.cmdMin < Items.reset.cmdMax ∧
    Items.reset.carry = true ∧ Drive.reset.prev ≤ Items.reset.cmdMax * 256 ∧
    clamp 0 (Items.reset.cmdMin * 256) (Items.reset.cmdMax * 256) = Drive.reset.prev := by
  unfold Items.inRanges; decide

theorem witness_ramp :
    let d : Drive := { Drive.reset with levelRamp := some ⟨0, 32768, 65535, 0⟩ }
    d.levelRamp = some ⟨0, 32768, 65535, 0⟩ ∧ (⟨0, 32768, 65535, 0⟩ : Ramp).start ≤ 32768 := by decide

theorem witness_bad_word : State.reset.cond = .running ∧ (List.replicate 23 true).length ≠ 24 := by decide

theorem witness_servo_ready :
    (∀ r ∈ [RunState.offline, .assembly, .standby, .ready, .countdown, .run, .pausing, .paused, .stopping, .stopped, .tripped],
      ({ inRun r with servo := staleServo } : State).servo.ready = true) ∧ (inRun .ready).rosterComplete = true ∧
    (inRun .stopped).servo.ready = false ∧ (inRun .stopped).run.state ≠ .standby ∧ (inRun .stopped).run.state ≠ .ready ∧
    (List.replicate 31 (⟨.marker, 0, 0, 0⟩ : Event)).length < 32 ∧ 32 ≤ (List.replicate 32 (⟨.marker, 0, 0, 0⟩ : Event)).length := by
  decide

/-- A record of a stop. -/
def stopRecord : FaultRecord :=
  { cause := 1, reason := 1, origin := 1, classT := false, concerned := 1, state := .run, cycle := 0, replay := 0, tag := 0
    rep := 0, escalated := false, further := 255 }

theorem witness_stop_requests : Cause.operator.isT = false ∧ Cause.isolated.isT = true ∧ (inRun .run).scratch = .rest ∧
    (inRun .run).run.record = none ∧ ({ Run.reset with record := some stopRecord } : Run).record = some stopRecord := by
  decide

/-- The events that fall together with a STOP leave each kind of run state: a loss of servo-ready trips a node in RUN; a repeated
level changes nothing in RUN and COUNTDOWN; the instant that ends the schedule leaves STOPPING; a boundary at which a group peer
goes SILENT leaves a countdown. -/
theorem witness_stop_ahead :
    let s := { atPosition .run 2 2 with servo := freshServo 0 }
    s.port.progress = none ∧ s.servo.ready = true ∧
    ((s.inProgress 15 4 0).happens (.servoReady false)).run.state = .tripped ∧
    ((s.inProgress 15 4 0).happens (.servoReady true)).run.state = .run ∧
    ((s.inProgress 15 4 0).happens (.instant [])).run.state = .stopping ∧
    (((inRun .countdown).inProgress 15 4 0).happens (.servoReady false)).run.state = .countdown ∧
    (((onRing .up 8 0 (withPeer .silent (inRun .countdown))).inProgress 15 4 0).happens (.boundary [])).run.state = .assembly := by
  decide +kernel

/-- CLEAR in TRIPPED: with its conditions, the sample at FbMax; without them. -/
theorem witness_clear :
    let s := { inRun .tripped with servo := { staleServo with latest := some 8388607 } }
    s.port.progress = none ∧ s.servo.ready = true ∧ s.items.fbMin ≤ s.servo.latest.getD 0 ∧
      s.servo.latest.getD 0 = s.items.fbMax ∧ (inRun .tripped).servo.ready = false ∧
      (inRun .stopped).rosterComplete = true ∧ (withPeer .listed (inRun .stopped)).rosterComplete = false := by decide

theorem witness_origination :
    (inRun .ready).takesCommands ∧ (inRun .ready).orders.carried = none ∧ (inRun .ready).orders.pending.length < 4 ∧
    ({ Orders.reset with carried := some 1 } : Orders).carried ≠ none ∧
    4 ≤ ({ Orders.reset with pending := List.replicate 4 (orderOf .level 1) } : Orders).pending.length ∧
    (65535 : Word).toNat ≤ 65535 := by
  refine ⟨⟨rfl, rfl⟩, rfl, by decide, by decide, by decide, by decide⟩

/-- Orders of another domain, met in the list from the same, a lower and a higher origin, met in the history from a lower and a
higher one; late and in time; a list of one, of two and of four. -/
theorem witness_adoption :
    let o := orderOf .start 1
    let s := withPeer .active (inRun .ready)
    let e := { o with origin := 3 }
    let other := { o with epoch := 9 }
    ({ o with domain := 2 }.domain &&& s.items.domain = 0) ∧ o.domain &&& s.items.domain ≠ 0 ∧
      later o.effective s.time.cycle = true ∧ later (0 : Word) s.time.cycle = false ∧
      s.positionFields = (0, 0, 0) ∧ s.run.state = .ready ∧ s.orders.pending.length < 4 ∧
      o.origin < e.origin ∧ e ∈ [other, e] ∧ e.epoch = o.epoch ∧ (∀ x ∈ [other, e], x.epoch = o.epoch → x = e) ∧
      (∀ x ∈ [(⟨1, 3⟩ : OrderId)], x.epoch = o.epoch → o.origin < x.origin) ∧ (∃ x ∈ [(⟨1, 3⟩ : OrderId)], x.epoch = o.epoch) ∧
      (∃ x ∈ [(⟨1, 2⟩ : OrderId)], x.epoch = o.epoch ∧ x.origin ≤ o.origin) ∧
      4 ≤ (List.replicate 4 other).length ∧ ∀ x ∈ List.replicate 4 other, x.epoch ≠ o.epoch := by decide

/-- A calm boundary with one due order, for each kind, with the servo ready and a new sample. -/
theorem witness_due_orders :
    (∀ x ∈ [(RunState.countdown, OrderKind.start), (.run, .pause), (.paused, .resume), (.run, .level), (.pausing, .level)],
      let s := marked { withOrder x.1 (orderOf x.2 1) with servo := freshServo 0 }
      s.time.mark = true ∧ s.calm ∧ s.drive.runRamp = none ∧
        s.orders.pending.filter (fun y => !later y.effective (s.time.cycle + 1)) = [orderOf x.2 1]) ∧
    (withOrder .countdown (orderOf .start 1)).run.countdown = some { epoch := 1, origin := 2 } := by
  unfold State.calm State.cutOff State.atMissLimit; decide +kernel

/-- A due order of each kind out of its place, with and without a ramp; and a START of another identity in COUNTDOWN. -/
theorem witness_out_of_place :
    (∀ x ∈ [(RunState.run, OrderKind.start), (.paused, .pause), (.run, .resume), (.stopping, .level), (.tripped, .level)],
      let s := marked { withOrder x.1 (orderOf x.2 1) with servo := freshServo 0 }
      s.calm ∧ s.run.state ≠ .offline ∧ s.drive.levelRamp = none ∧ s.drive.runRamp = none ∧
        s.orders.pending.filter (fun y => !later y.effective (s.time.cycle + 1)) = [orderOf x.2 1]) ∧
    (withOrder .run (orderOf .start 1)).outOfPlace (orderOf .start 1) ∧
    (withOrder .paused (orderOf .pause 1)).outOfPlace (orderOf .pause 1) ∧
    (withOrder .run (orderOf .resume 1)).outOfPlace (orderOf .resume 1) ∧
    (withOrder .stopping (orderOf .level 1)).outOfPlace (orderOf .level 1) ∧
    (withOrder .countdown (orderOf .level 1)).outOfPlace { orderOf .start 1 with origin := 3 } := by
  simp only [State.outOfPlace, orderOf]
  unfold State.calm State.cutOff State.atMissLimit; decide +kernel

/-- In COUNTDOWN station 2, expected in the group, is ACTIVE in READY and its frame is two cycles past the adoption. -/
theorem witness_countdown_fails :
    let s := marked { onRing .up 8 0 (withPeer .active (inRun .countdown)) with
      servo := freshServo 0
      peers := put State.reset.peers 1 { groupPeer .active with
        last := { (groupPeer .active).last with cycle := 2, runState := 3 } } }
    s.calm ∧ s.run.state = .countdown ∧ s.failsCheck 1 ∧ (∀ k : Station, k.val < 1 → ¬ s.failsCheck k) ∧
      s.port.events = [] ∧ s.orders.pending.length ≤ 4 := by
  unfold State.calm State.cutOff State.atMissLimit State.failsCheck; decide +kernel

/-- The last edge within the cycle. -/
theorem witness_arrival : State.reset.time.trim = 0 ∧
    State.reset.time.acc.toNat + 12207 * State.reset.increment = 4294959708 := by decide

/-- A usable frame in READY and in ASSEMBLY, two cycles ahead. -/
theorem witness_offset :
    (withPeer .listed (inRun .ready)).timingUsable 1 65534 = true ∧ (withPeer .active (inRun .assembly)).timingUsable 1 0 = true ∧
      1 < ((2 : Word) - 0).toInt ∧ (withPeer .silent (inRun .ready)).timingUsable 1 0 = false := by decide

theorem witness_trim :
    let s := { withPeer .active (inRun .ready) with time := { Time.reset with fresh := put Time.reset.fresh 1 true } }
    s.run.state ≠ .offline ∧ s.time.fresh.get 1 = true ∧ (s.peer 1).state = .active := by decide

/-- A duplicate, a repeat, stale copies at the nearest and farthest distances, and an invalid source. -/
theorem witness_discards :
    (withCopy 5 (validEntry 5 false true 0 0)).waiting[0]? = some (copyOf 5) ∧ (copyOf 5).frame.source.toNat = stationNumber 1 ∧
      ((5 : Word).setWidth 16 - (5 : Half)).toNat = 0 ∧ ((5 : Word).setWidth 16 - (6 : Half)).toNat = 65535 ∧
      ((5 : Word).setWidth 16 - (32773 : Half)).toNat = 32768 ∧ (0 : Byte).toNat = 0 ∧ 16 < (17 : Byte).toNat ∧
      State.reset.waiting[0]? = none := by decide

/-- A first copy, a newer one at either end of its range, and the 16th stale one. -/
theorem witness_acceptances :
    (withCopy 5 FilterEntry.reset).filter.get 1 = FilterEntry.reset ∧ ((5 : Word).setWidth 16 - (4 : Half)).toNat = 1 ∧
      ((5 : Word).setWidth 16 - (32774 : Half)).toNat = 32767 ∧
      ((withCopy 5 (validEntry 6 true false 15 63)).filter.get 1).staleRun = 15 ∧
      ((withCopy 5 (validEntry 4 true false 0 63)).filter.get 1).singleRun = 63 := by decide

/-- A newer copy of a group peer in RUN: its replay index two behind, at either side of n, and two ahead; its record equal to the
expected one and not; its stop field at either end of both ranges. -/
theorem witness_skews_and_peer_stop :
    let s := { withPeer .silent (withCopy 5 (validEntry 4 true true 0 0)) with
      waiting := [copyOf 5], filter := put State.reset.filter 1 (validEntry 4 true true 0 0)
      run := { Run.reset with state := .run }, sched := { Sched.reset with replay := 10, current := some ⟨7, 1⟩ } }
    s.waiting[0]? = some (copyOf 5) ∧ (s.filter.get 1).valid = true ∧
      ((5 : Word).setWidth 16 - (s.filter.get 1).last).toNat = 1 ∧ (s.peer 1).expected = true ∧ (s.peer 1).state = .silent ∧
      (copyOf 5).frame.profile.toNat / 16 = 1 ∧ (copyOf 5).frame.profile.toNat % 4 = s.time.rate.val ∧
      (copyOf 5).frame.domain &&& s.items.domain ≠ 0 ∧ (copyOf 5).frame.runState = 5 ∧ s.run.state = .run ∧
      (1 : Int) < 12 - s.sched.replay.toNat ∧ (11 : Int) = s.sched.replay.toNat + 1 ∧ (9 : Int) = s.sched.replay.toNat - 1 ∧
      (8 : Int) - s.sched.replay.toNat < -1 ∧ s.sched.current.getD ⟨0, 0⟩ ≠ ⟨7, 2⟩ ∧ s.sched.previous.getD ⟨0, 0⟩ = ⟨0, 0⟩ ∧
      (1 : Byte).toNat = 1 ∧ (16 : Byte).toNat ≤ 16 ∧ (15 : Byte).toNat ≤ 15 ∧ (8 : Byte) ≠ 5 ∧ (8 : Byte) ≠ 6 ∧
      (s.peer 1).stepRun < 7 ∧ (copyOf 5).frame.orderKind = 0 ∧ s.run.record = none := by decide

theorem witness_step_loss :
    let s := { withCopy 5 (validEntry 4 true false 0 0) with
      run := { Run.reset with state := .ready }
      peers := put State.reset.peers 1 { groupPeer .active with stepRun := 7 } }
    (s.filter.get 1).valid = true ∧ (s.peer 1).expected = true ∧ (s.peer 1).state = .active ∧
      (copyOf 5).frame.profile.toNat / 16 = 1 ∧ (copyOf 5).frame.profile.toNat % 4 = s.time.rate.val ∧
      (copyOf 5).age < 65535 ∧ (s.peer 1).stepRun = 7 ∧
      (s.items.stepLimit : Int) < clamp (((5 : Word) - 0).toInt * 65536 + 0 + 65534 - 0) (-32767) 32767 := by decide

theorem witness_unexpected_station :
    let s := withCopy 5 FilterEntry.reset
    s.waiting[0]? = some (copyOf 5) ∧ (copyOf 5).frame.source.toNat = stationNumber 1 ∧ (s.peer 1).expected = false := by decide

/-- Full and short windows, and records equal to an entry, between two, below the oldest and above the newest. -/
theorem witness_placement :
    let w : List WindowRecord := [⟨2, 0, false⟩, ⟨4, 0, false⟩, ⟨6, 0, false⟩, ⟨8, 0, false⟩, ⟨10, 0, false⟩, ⟨12, 0, false⟩,
      ⟨14, 0, false⟩, ⟨16, 0, false⟩]
    windowSound w ∧ w.length = 8 ∧ windowSound w.tail ∧ w.tail.length < 8 ∧ (∃ y ∈ w, y.index = 16) ∧
      (∀ y ∈ w, y.index ≠ 1) ∧ (∀ y ∈ w, y.index ≠ 3) ∧ (∀ y ∈ w, y.index ≠ 17) := by
  unfold windowSound; decide

theorem witness_signal :
    (State.reset.side .west).signal = false ∧ (State.reset.side .west).state = .down ∧ 0 < (State.reset.side .west).hold ∧
    ((onRing .up 8 0 (inRun .run)).side .east).signal = true ∧ ((onRing .up 8 0 (inRun .run)).side .east).state ≠ .down ∧
    (inRun .run).run.state.inMotion = true := by decide

/-- Clean words short of the 8th and the 8th; a word with remote fault and one with a wrong check. -/
theorem witness_lane_words :
    ((onRing .training 6 0 State.reset).side .west).words < 7 ∧ ((onRing .training 7 0 State.reset).side .west).words = 7 ∧
    (0xED : Byte) = ~~~((0x12 : Byte) ^^^ 0) ∧ (0x12 : Byte).toNat / 16 = 1 ∧
    (0x12 : Byte).toNat % 4 = State.reset.time.rate.val ∧ (0xEC : Byte) = ~~~((0x12 : Byte) ^^^ 1) ∧
    (0 : Byte) ≠ ~~~((0x12 : Byte) ^^^ 1) ∧ ((onRing .up 8 0 State.reset).side .west).state = .up := by decide

theorem witness_frame_arrival :
    let s := { onRing .up 8 7 (withPeer .active (inRun .run)) with
      ring := { (onRing .up 8 7 (inRun .run)).ring with a := { LaneRec.reset with receiving := some ⟨3, 9⟩ } } }
    (s.lane .a).receiving = some ⟨3, 9⟩ ∧ (s.side Lane.a.inSide).state = .up ∧ (frameOf 1).source.toNat ≠ s.items.station ∧
      (frameOf 1).hops ≠ 0 ∧ (s.side Lane.a.outSide).state = .up ∧ (s.lane .a).queue.length < 16 ∧
      { frameOf 1 with source := 1 }.source.toNat = s.items.station ∧ checkFrame [] = none ∧
      (s.side Lane.a.inSide).fails = 7 := by decide

/-- The arrivals of the other clauses: on a side DOWN, on one in TRAINING, in OFFLINE, with no hops left, with the other side not UP
and with a full queue. -/
theorem witness_frame_arrival_elsewhere :
    let arriving (s : State) : State := s.onLane .a (fun x => { x with receiving := some ⟨3, 9⟩ })
    (∀ x ∈ [SideState.down, .training, .up],
      let s := arriving (onRing x 0 0 State.reset)
      (s.lane .a).receiving = some ⟨3, 9⟩ ∧ (s.side Lane.a.inSide).state = x ∧ s.run.state = .offline) ∧
    ({ frameOf 1 with hops := 0 }.hops = 0) ∧
    (let s := (onRing .up 8 0 State.reset).onSide Lane.a.outSide (fun x => { x with state := .training })
     (s.side Lane.a.inSide).state = .up ∧ (s.side Lane.a.outSide).state ≠ .up) ∧
    16 ≤ (List.replicate 16 (Queued.own (frameOf 1))).length := by decide

theorem witness_transmission :
    let s := { onRing .up 8 0 (inRun .run) with
      ring := { (onRing .up 8 0 (inRun .run)).ring with a := { LaneRec.reset with queue := [.own (frameOf 1)] } } }
    (s.lane .a).queue = [.own (frameOf 1)] ∧ (s.lane .a).sending = none ∧ (s.side Lane.a.outSide).state = .up ∧
      (s.lane .b).queue = [] := by decide

/-- Bursts served by the port: a sample burst with and without its void flag, shapes 14 and 15, and the reader's three moves. -/
theorem witness_bursts :
    let c : Sched := { Sched.reset with burst := some (.sample 0 3 false), reader := some ⟨segment, 2, 0, []⟩ }
    c.burst = some (.sample 0 3 false) ∧ c.reader = some ⟨segment, 2, 0, []⟩ ∧ segment.length ≤ 0 + 3 ∧ 0 + 2 < segment.length ∧
      1 < segment.repeats ∧ segment.repeats ≤ 2 ∧ ({ c with burst := some (.shape 15) } : Sched).burst = some (.shape 15) ∧
      Words.wf [] ∧ ({ serving := some .prefetch, chunk := none } : Arbiter).serving = some .prefetch := by decide

/-- A transfer that ends with its page, and one that passes its end. -/
theorem witness_pages :
    State.reset.takesCommands ∧ (8191 : Word).toNat ≤ 8191 ∧ (4095 : Word).toNat + (1 : Word).toNat = 4096 ∧
    (4095 : Word).toNat + (2 : Word).toNat = 4097 ∧ ([7] : List Word).length = ((2 : Word).toNat + 1) / 2 ∧
    Words.wf [(4, 1)] ∧
    ({ Port.reset with reply := some ⟨1, 4, .pending, []⟩ } : Port).reply = some ⟨1, 4, .pending, []⟩ := by
  refine ⟨⟨rfl, rfl⟩, by decide, by decide, by decide, by decide, by decide, rfl⟩

theorem witness_transactions :
    malformed [21] = true ∧ malformed [1, 5, 0, 0] = true ∧ (Instr.getStatus 5 []).command? = some (1, 5, []) ∧
    ({ Port.reset with progress := some (4, 1) } : Port).progress = some (4, 1) ∧
    ({ Port.reset with reply := some ⟨1, 4, .ok, []⟩, answer := some (1, .ok) } : Port).answer = some (1, .ok) ∧
    (List.replicate 131 (0 : Word)).length ≤ 131 := by decide +kernel

theorem witness_reads :
    ({ Port.reset with events := [⟨.marker, 0, 0, 0⟩] } : Port).events = [⟨.marker, 0, 0, 0⟩] ∧ State.reset.port.events = [] ∧
    (1 : Word).toNat = stationNumber 0 ∧ (16 : Word).toNat = stationNumber 15 ∧
    (52 : Word).toNat = Counter.busyAnswer.place.val + 1 ∧ 7 < (8 : Word).toNat ∧ State.reset.run.record = none := by decide

/-- The values at the ends of each item's range and beyond them, in OFFLINE. -/
theorem witness_config :
    State.reset.run.state = .offline ∧
    (∀ x ∈ unsignedItems, (BitVec.ofNat 32 x.2.1).toNat = x.2.1 ∧ x.2.2.1 < (BitVec.ofNat 32 (x.2.2.1 + 1)).toNat) ∧
    (∀ x ∈ signedItems, (BitVec.ofInt 32 x.2.1).toInt = x.2.1 ∧ (BitVec.ofInt 32 (x.2.1 - 1)).toInt < x.2.1 ∧
      x.2.2.1 < (BitVec.ofInt 32 (x.2.2.1 + 1)).toInt) ∧
    slotItems.map (·.1) = [25, 26, 27, 28] ∧ (3, MarkerAction.note) ∈ actionWords ∧ (65535 : Word).toNat ≤ 65535 ∧
    65535 < (65536 : Word).toNat ∧ 24 < (25 : Word).toNat ∧ (24 : Word).toNat < 25 ∧ 28 < (29 : Word).toNat := by
  decide +kernel

/-- GO ONLINE with every check passed, and with each of the five failed first. -/
theorem witness_go_online :
    let c := { Items.reset with station := 1, roster := 2, domain := 1 }
    let s := State.reset.withItems c
    s.run.state = .offline ∧ s.items.station = stationNumber 0 ∧ s.items.roster.getLsbD (0 : Station).val = false ∧
      s.items.domain ≠ 0 ∧ s.items.cmdMin < s.items.cmdMax ∧ s.items.fbMin < s.items.fbMax ∧ State.reset.items.station = 0 ∧
      { c with roster := 1 }.roster.getLsbD (0 : Station).val = true ∧ { c with domain := 0 }.domain = 0 ∧
      { c with cmdMin := 5, cmdMax := 5 }.cmdMax ≤ { c with cmdMin := 5, cmdMax := 5 }.cmdMin ∧
      { c with fbMin := 5, fbMax := 5 }.fbMax ≤ { c with fbMin := 5, fbMax := 5 }.fbMin := by decide

theorem witness_schedule :
    segment.inRanges ∧ (atPosition .stopped 1 1).sched.queue = [segment] ∧ 1 ≤ (2 : Word).toNat ∧
    (2 : Word).toNat ≤ segment.repeats ∧ segment.repeats < (3 : Word).toNat ∧ (inRun .stopped).sched.head = none ∧
    RunState.stopped ∈ [RunState.standby, .ready, .stopped] ∧ RunState.run ∉ [RunState.standby, .ready, .stopped] ∧
    64 ≤ (List.replicate 64 segment).length := by
  unfold Entry.inRanges; decide +kernel

theorem witness_coupling :
    (2 : Word).toNat = stationNumber 1 ∧ State.reset.items.station ≠ stationNumber 1 ∧ (32767 : Word).toInt ≤ 32767 ∧
    32767 < (32768 : Word).toInt ∧ ({ Drive.reset with apply := .atRepeat } : Drive).apply = .atRepeat ∧
    (atPosition .run 1 0).sched.head = some ⟨1, 0, 0⟩ ∧ (atPosition .run 1 1).sched.head = some ⟨1, 1, 0⟩ := by decide

/-- The premises of the laws that a step keeps: a ready node, a clear mark below OutputPhase, and motion with servo-ready. -/
theorem witness_laws :
    let s := { inRun .run with servo := freshServo 0 }
    s.readyLaw ∧ s.motionLaw ∧ s.items.inRanges ∧ s.trimLaw ∧ s.clockLaw ∧ s.run.state.inMotion = true := by
  unfold State.readyLaw State.motionLaw Items.inRanges State.trimLaw State.clockLaw; decide +kernel

end Sys2Proof.Tests
end

namespace Sys2Proof.Machine

/-! ### The part right after reset -/

/-- Every table record after reset is the reset record. -/
@[simp] theorem State.reset_peer (j : Station) : State.reset.peer j = Peer.reset := by
  simp [State.peer, State.reset, Vector.get_eq_getElem]

@[simp] theorem State.reset_filter (j : Station) : State.reset.filter.get j = FilterEntry.reset := by
  simp [State.reset, Vector.get_eq_getElem]

theorem State.reset_tripLaw : State.reset.tripLaw := rfl

theorem State.reset_countdownLaw : State.reset.countdownLaw := rfl

theorem State.reset_restLaw : State.reset.restLaw :=
  ⟨fun _ => ⟨rfl, rfl⟩, fun h => absurd h (by decide)⟩

theorem State.reset_readyLaw : State.reset.readyLaw :=
  ⟨fun h => absurd h (by decide), fun h => absurd h (by decide)⟩

theorem Items.reset_inRanges : Items.reset.inRanges := by unfold Items.inRanges; decide

theorem State.reset_outputLaw : State.reset.outputLaw := ⟨Items.reset_inRanges, rfl, rfl, rfl⟩

theorem State.reset_factorLaw : State.reset.factorLaw := by
  refine ⟨Items.reset_inRanges, by decide, by decide, by unfold inSigned16; decide, fun j => ?_,
    fun r h => absurd h (by simp [State.reset, Drive.reset]), fun r h => absurd h (by simp [State.reset, Drive.reset]),
    fun o h => absurd h List.not_mem_nil⟩
  simp [State.reset, Drive.reset, Vector.get_eq_getElem, inSigned16]

theorem State.reset_storeLaw : State.reset.storeLaw :=
  ⟨Words.wf_nil, fun _ h => absurd h List.not_mem_nil, Words.wf_nil, fun _ h => absurd h List.not_mem_nil,
    fun _ h => absurd h (by simp [State.reset, Arbiter.reset]), fun _ h => absurd h (by simp [State.reset, Sched.reset])⟩

theorem State.reset_scheduleLaw : State.reset.scheduleLaw :=
  ⟨Nat.zero_le _, fun _ h => absurd h List.not_mem_nil, trivial⟩

theorem State.reset_tableLaw : State.reset.tableLaw := by
  intro j
  rw [State.reset_peer, State.reset_filter]
  unfold Peer.inRanges FilterEntry.inRanges windowSound feedbackSound Peer.reset FilterEntry.reset
  simp

theorem State.reset_rosterLaw : State.reset.rosterLaw := by
  refine ⟨fun j h => ?_, fun j _ => ?_, fun c h => absurd h List.not_mem_nil, fun _ => ⟨rfl, fun j => ?_⟩⟩
  · rw [State.reset_peer] at h; exact absurd h (by decide)
  all_goals rw [State.reset_peer]; exact ⟨rfl, rfl⟩

theorem State.reset_ringLaw : State.reset.ringLaw := by
  unfold State.ringLaw SideRec.sound LaneRec.sound; decide

theorem State.reset_portLaw : State.reset.portLaw := by
  refine ⟨Nat.zero_le _, fun k => ?_⟩
  simp [State.reset, Port.reset, Vector.get_eq_getElem]

/-- Settles O60: each law at the reset values, block by block. -/
theorem resetMeetsTheLaws : Obligations.ResetMeetsTheLaws :=
  ⟨State.reset_tripLaw, State.reset_countdownLaw, State.reset_restLaw, State.reset_readyLaw, State.reset_outputLaw,
    State.reset_factorLaw, State.reset_storeLaw, State.reset_scheduleLaw, by unfold State.fifoLaw; decide,
    State.reset_tableLaw, State.reset_rosterLaw, State.reset_ringLaw, by unfold State.orderLaw; decide,
    by unfold State.trimLaw; decide, State.reset_portLaw, fun h => absurd h (by decide), fun _ => by decide,
    rfl, rfl, rfl, rfl, rfl, rfl⟩

end Sys2Proof.Machine

namespace Sys2Proof.Machine

/-! ### What a change of the run state changes (R71) -/

section ChangeState
variable (s : State) (r : RunState)

@[simp] theorem State.changeState_state : (s.changeState r).run.state = r := rfl
@[simp] theorem State.changeState_countdown :
    (s.changeState r).run.countdown = if s.run.state = .countdown then none else s.run.countdown := by
  simp [State.changeState]
theorem State.changeState_trip :
    (s.changeState r).run.trip = if r = .standby then false else if r = .tripped then true else s.run.trip := by
  cases r <;> simp [State.changeState]
@[simp] theorem State.changeState_assembly :
    (s.changeState r).run.assembly = if r = .assembly then 0 else s.run.assembly := by simp [State.changeState]
@[simp] theorem State.changeState_stopField : (s.changeState r).run.stopField = s.run.stopField := by
  simp [State.changeState]
@[simp] theorem State.changeState_record : (s.changeState r).run.record = s.run.record := by simp [State.changeState]
@[simp] theorem State.changeState_adoption : (s.changeState r).run.adoption = s.run.adoption := by
  simp [State.changeState]
@[simp] theorem State.changeState_drive : (s.changeState r).drive = s.drive := by simp [State.changeState]
@[simp] theorem State.changeState_sched : (s.changeState r).sched = s.sched := by simp [State.changeState]
@[simp] theorem State.changeState_orders : (s.changeState r).orders = s.orders := by simp [State.changeState]
@[simp] theorem State.changeState_scratch : (s.changeState r).scratch = s.scratch := by simp [State.changeState]
@[simp] theorem State.changeState_peers : (s.changeState r).peers = s.peers := by simp [State.changeState]
@[simp] theorem State.changeState_servo : (s.changeState r).servo = s.servo := by simp [State.changeState]
@[simp] theorem State.changeState_time : (s.changeState r).time = s.time := by simp [State.changeState]
@[simp] theorem State.changeState_ring : (s.changeState r).ring = s.ring := by simp [State.changeState]
@[simp] theorem State.changeState_arb : (s.changeState r).arb = s.arb := by simp [State.changeState]
@[simp] theorem State.changeState_store : (s.changeState r).store = s.store := by simp [State.changeState]
@[simp] theorem State.changeState_port :
    (s.changeState r).port = (s.post .runState (word r.code) (word s.run.state.code)).port := rfl

end ChangeState

/-! ### The counters that requests and tests of the run controller leave alone -/

/-- The counters of the drive unit and of the application of orders. -/
def tallied : List Counter := [.clip, .slew, .underrun, .ordersApplied, .ordersInapplicable, .countdownAbort]

/-- The tallied counters, and the reply of the supervisor port. -/
def State.tally (s : State) : List Nat × Option Reply := (tallied.map s.counter, s.port.reply)

theorem State.counter_of_tally {s t : State} (h : t.tally = s.tally) {c : Counter} (hc : c ∈ tallied) :
    t.counter c = s.counter c := List.map_inj_left.mp (congrArg Prod.fst h) c hc

theorem State.reply_of_tally {s t : State} (h : t.tally = s.tally) : t.port.reply = s.port.reply := congrArg Prod.snd h

theorem State.tally_eq {s t : State} (h : ∀ c ∈ tallied, t.counter c = s.counter c) (hr : t.port.reply = s.port.reply) :
    t.tally = s.tally := Prod.ext (List.map_inj_left.mpr h) hr

/-- A counter of another place is not in the way of the tallied ones. -/
theorem State.count_tally (s : State) (c : Counter) (n : Nat) (h : ∀ d ∈ tallied, d.place ≠ c.place) :
    (s.count c n).tally = s.tally := State.tally_eq (fun d hd => s.count_counter_other c d n (h d hd)) rfl

theorem State.bump_tally (s : State) (c : Counter) (h : ∀ d ∈ tallied, d.place ≠ c.place) :
    (s.bump c).tally = s.tally := s.count_tally c 1 h

/-- A posting raises no counter but that of the lost events. -/
theorem State.post_counter (s : State) (k : EventKind) (a b : Word) {c : Counter} (h : c.place ≠ Counter.eventOverflow.place) :
    (s.post k a b).counter c = s.counter c := by
  rcases s.post_cases k a b with ⟨-, e⟩ | ⟨-, e⟩
  · rw [e]; rfl
  · rw [e]; exact s.count_counter_other _ c 1 h

@[simp] theorem State.post_tally (s : State) (k : EventKind) (a b : Word) : (s.post k a b).tally = s.tally :=
  State.tally_eq (fun c hc => s.post_counter k a b (by revert c; decide))
    (by rcases s.post_cases k a b with ⟨-, e⟩ | ⟨-, e⟩ <;> exact (congrArg (fun t : State => t.port.reply) e).trans rfl)

@[simp] theorem State.changeState_tally (s : State) (r : RunState) : (s.changeState r).tally = s.tally :=
  s.post_tally _ _ _

/-! ### The gear: what the run controller, the ramps and the orders move -/

/-- The parts of State that the run laws and the factor laws speak of: run state, trip line, countdown order, stop field, presence
of the record, drive unit, orders, reader hold, scratch, the tallied counters and the reply. -/
abbrev Gear :=
  RunState × Bool × Option OrderId × Option StopField × Bool × Drive × Orders × Bool × Scratch × List Nat × Option Reply

def State.gear (s : State) : Gear :=
  (s.run.state, s.run.trip, s.run.countdown, s.run.stopField, s.run.record.isSome, s.drive, s.orders, s.sched.hold,
    s.scratch, s.tally)

theorem State.gear_eq_iff {s t : State} : t.gear = s.gear ↔
    t.run.state = s.run.state ∧ t.run.trip = s.run.trip ∧ t.run.countdown = s.run.countdown ∧
    t.run.stopField = s.run.stopField ∧ t.run.record.isSome = s.run.record.isSome ∧ t.drive = s.drive ∧
    t.orders = s.orders ∧ t.sched.hold = s.sched.hold ∧ t.scratch = s.scratch ∧ t.tally = s.tally := by
  simp [State.gear]

@[simp] theorem State.post_gear (s : State) (k : EventKind) (a b : Word) : (s.post k a b).gear = s.gear := by
  simp [State.gear_eq_iff]

theorem State.bump_gear (s : State) (c : Counter) (h : ∀ d ∈ tallied, d.place ≠ c.place) : (s.bump c).gear = s.gear := by
  simp [State.gear_eq_iff, s.bump_tally c h]

theorem State.count_gear (s : State) (c : Counter) (n : Nat) (h : ∀ d ∈ tallied, d.place ≠ c.place) :
    (s.count c n).gear = s.gear := by
  simp [State.gear_eq_iff, s.count_tally c n h]

@[simp] theorem State.onPeer_gear (s : State) (j : Station) (f : Peer → Peer) : (s.onPeer j f).gear = s.gear := rfl
@[simp] theorem State.onSide_gear (s : State) (d : Side) (f : SideRec → SideRec) : (s.onSide d f).gear = s.gear := rfl
@[simp] theorem State.onLane_gear (s : State) (l : Lane) (f : LaneRec → LaneRec) : (s.onLane l f).gear = s.gear := rfl
@[simp] theorem State.setFilter_gear (s : State) (j : Station) (e : FilterEntry) : (s.setFilter j e).gear = s.gear := rfl
@[simp] theorem State.countFurther_gear (s : State) : s.countFurther.gear = s.gear := by
  simp [State.gear_eq_iff, State.countFurther, State.tally, State.counter]

theorem State.fetch_gear (s : State) : s.fetch.gear = s.gear := by
  unfold State.fetch
  split
  · rfl
  · split <;> rfl

theorem State.flush_gear (s : State) : s.flush.gear = s.gear := State.fetch_gear _

theorem State.rewind_gear (s : State) : s.rewind.gear = s.gear := by
  unfold State.rewind
  split <;> exact State.flush_gear _

end Sys2Proof.Machine

namespace Sys2Proof.Machine

/-! ### The moves of the gear -/

/-- The changes of run state that no order makes (R73 to R79, R83, R84): among the states at rest, into STOPPING, and the end of a
PAUSE ramp. Those into STOPPED and TRIPPED are moves of their own. -/
def RunState.settlesTo : RunState → RunState → Bool
  | .assembly, .standby => true
  | .standby, .ready => true
  | .standby, .assembly => true
  | .ready, .standby => true
  | .ready, .assembly => true
  | .countdown, .ready => true
  | .run, .stopping => true
  | .pausing, .stopping => true
  | .paused, .stopping => true
  | .pausing, .paused => true
  | _, _ => false

/-- The changes of run state that an applied order makes (R114 to R116). -/
def RunState.orderedTo : RunState → RunState → Bool
  | .countdown, .run => true
  | .run, .pausing => true
  | .paused, .run => true
  | _, _ => false

/-- The R descriptor after a step, with the scratch that the report leaves (R22, R24, R88). -/
def State.runStepped (s : State) : State :=
  { s with drive := (s.drive.stepRun s.items.stopStep).1
           scratch := s.scratch.atZero (s.drive.stepRun s.items.stopStep).2 }

/-- The L descriptor after a step, with the values before it kept in the scratch (R22, R23). -/
def State.levelStepped (s : State) : State :=
  { s with drive := s.drive.stepLevel, scratch := { s.scratch with stepped := some (s.drive.level, s.drive.ramp) } }

/-- What one act can do to the gear, `A` being the orders at hand. With no order at hand the moves of orders are shut out. -/
inductive Move (A : Order → Prop) : State → State → Prop
  | still {s t : State} (h : t.gear = s.gear) : Move A s t
  | bring (s : State) (x : Happening) : Move A s (s.bring x)
  | change (s : State) (r : RunState) (h : s.run.state.settlesTo r = true) : Move A s (s.changeState r)
  | stop (s : State) (hs : s.run.state = .stopping) (hr : s.drive.ramp = 0) (hd : s.drive.runRamp = none) :
      Move A s (s.changeState .stopped)
  | trip (s : State) (q : StopRequest) (h : s.run.state ≠ .offline) : Move A s (s.enterTripped q)
  | episode (s : State) (q : StopRequest) : Move A s ((s.latch q).setStopField q)
  | descend (s : State) (h : s.run.state = .stopping) : Move A s s.installDescent
  | stepRun (s : State) : Move A s s.runStepped
  | stepLevel (s : State) (h : s.run.state ≠ .tripped) : Move A s s.levelStepped
  | abort (s : State) (h : s.run.state = .countdown) : Move A s (s.bump .countdownAbort)
  | file {o : Order} (s : State) (u : Orders) (ho : A o) (h : ∀ x ∈ u.pending, x ∈ s.orders.pending ∨ A x) :
      Move A s { s with orders := u }
  | offer (s : State) (e : Half) {o : Order} (ho : A o) : Move A s (s.offerEpoch e)
  | applied {o : Order} (s : State) (ho : A o) : Move A s (s.noteApplied o)
  | inapplicable {o : Order} (s : State) (ho : A o) : Move A s (s.declareInapplicable o)
  | order {o : Order} (s : State) (r : RunState) (ho : A o) (h : s.run.state.orderedTo r = true) :
      Move A s (s.changeState r)
  | count {o : Order} (s : State) (i : OrderId) (ho : A o) (h : s.run.state = .ready) : Move A s (s.enterCountdown i)
  | level {o : Order} (s : State) (ho : A o) : Move A s (s.setLevel o.b)
  | start {o : Order} (s : State) (ho : A o) : Move A s s.setRunStart
  | ramp {o : Order} (s : State) (z : Bool) (x : Nat) (ho : A o) (hx : x ≤ 32768)
      (h : s.run.state = .run ∨ s.run.state = .pausing) : Move A s (s.installRamp z x o.a)
  | rampLevel {o : Order} (s : State) (ho : A o) (h : s.run.state = .run ∨ s.run.state = .pausing ∨ s.run.state = .paused) :
      Move A s (s.rampLevel o.b o.a)

/-- A row of moves. -/
def Moves (A : Order → Prop) : State → State → Prop := Relation.ReflTransGen (Move A)

variable {A B : Order → Prop}

theorem Moves.refl (s : State) : Moves A s s := Relation.ReflTransGen.refl

theorem Moves.trans {s t u : State} (h : Moves A s t) (g : Moves A t u) : Moves A s u := Relation.ReflTransGen.trans h g

theorem Move.moves {s t : State} (h : Move A s t) : Moves A s t := Relation.ReflTransGen.single h

theorem Moves.still {s t : State} (h : t.gear = s.gear) : Moves A s t := (Move.still h).moves

/-- What every move keeps, a row of moves keeps. -/
theorem Moves.keeps {P : State → Prop} (hP : ∀ {s t}, Move A s t → P s → P t) {s t : State} (h : Moves A s t) (hs : P s) :
    P t := by
  induction h with
  | refl => exact hs
  | tail _ m ih => exact hP m ih

/-- More orders at hand allow no fewer moves. -/
theorem Move.mono (h : ∀ o, A o → B o) {s t : State} (m : Move A s t) : Move B s t := by
  cases m with
  | still e => exact .still e
  | bring _ x => exact .bring s x
  | change _ r e => exact .change s r e
  | stop _ a b c => exact .stop s a b c
  | trip _ q e => exact .trip s q e
  | episode _ q => exact .episode s q
  | descend _ e => exact .descend s e
  | stepRun => exact .stepRun s
  | stepLevel _ e => exact .stepLevel s e
  | abort _ e => exact .abort s e
  | file _ u ho e => exact .file s u (h _ ho) fun x hx => (e x hx).imp id (h x)
  | offer _ e ho => exact .offer s e (h _ ho)
  | applied _ ho => exact .applied s (h _ ho)
  | inapplicable _ ho => exact .inapplicable s (h _ ho)
  | order _ r ho e => exact .order s r (h _ ho) e
  | count _ i ho e => exact .count s i (h _ ho) e
  | level _ ho => exact .level s (h _ ho)
  | start _ ho => exact .start s (h _ ho)
  | ramp _ z x ho hx e => exact .ramp s z x (h _ ho) hx e
  | rampLevel _ ho e => exact .rampLevel s (h _ ho) e

theorem Moves.mono (h : ∀ o, A o → B o) {s t : State} (m : Moves A s t) : Moves B s t :=
  Relation.ReflTransGen.mono (fun _ _ => Move.mono h) _ _ m

/-- A fold of acts, each a row of moves, is a row of moves. -/
theorem Moves.foldl {α : Type} (f : State → α → State) (l : List α) (h : ∀ (t : State), ∀ a ∈ l, Moves A t (f t a)) (s : State) :
    Moves A s (l.foldl f s) := by
  induction l generalizing s with
  | nil => exact .refl s
  | cons a l ih =>
    exact (h s a List.mem_cons_self).trans (ih (fun t b hb => h t b (List.mem_cons_of_mem a hb)) (f s a))

end Sys2Proof.Machine

namespace Sys2Proof.Machine

variable {A : Order → Prop} (s : State)

/-! ### The run controller -/

theorem State.settle_moves {s : State} {r : RunState} (h : s.run.state.settlesTo r = true) : Moves A s (s.changeState r) :=
  (Move.change s r h).moves

theorem State.readyTest_moves : Moves A s s.readyTest := by
  unfold State.readyTest
  split
  case h_1 h =>
    split
    · exact settle_moves (by rw [h]; rfl)
    · exact .refl s
  case h_2 h =>
    split
    · exact settle_moves (by rw [h]; rfl)
    · split
      · exact .refl s
      · exact settle_moves (by rw [h]; rfl)
  case h_3 => exact .refl s

theorem State.reportIncomplete_moves : Moves A s s.reportIncomplete := by
  unfold State.reportIncomplete
  split
  case h_1 => exact .still rfl
  case h_2 h => exact settle_moves (by rw [h]; rfl)
  case h_3 h => exact settle_moves (by rw [h]; rfl)
  case h_4 => exact .refl s

theorem State.enterStandby_moves (h : s.run.state = .assembly) : Moves A s s.enterStandby :=
  (settle_moves (by rw [h]; rfl)).trans (State.readyTest_moves _)

theorem State.returnToReady_moves (h : s.run.state = .countdown) : Moves A s s.returnToReady :=
  (settle_moves (by rw [h]; rfl)).trans (State.readyTest_moves _)

theorem State.taken_gear (q : StopRequest) : (s.taken q).gear = s.gear :=
  (State.post_gear _ _ _ _).trans (s.bump_gear _ (by decide))

/-! ### The steps of the ramps -/

/-- The end of the STOP descent leaves R at 0 with no descriptor (R24). -/
theorem Drive.stepRun_descentAtZero {k : Nat} {d : Drive} (h : (d.stepRun k).2 = .descentAtZero) :
    (d.stepRun k).1.ramp = 0 ∧ (d.stepRun k).1.runRamp = none := by
  revert h
  unfold Drive.stepRun
  split
  · simp
  · dsimp only; split <;> simp
  · dsimp only
    split
    · rename_i hv; intro _; exact ⟨hv, rfl⟩
    · simp

theorem State.enterStopped_moves (hs : s.run.state = .stopping) (hr : s.drive.ramp = 0) (hd : s.drive.runRamp = none) :
    Moves A s s.enterStopped :=
  (Move.stop s hs hr hd).moves.trans (.still (State.rewind_gear _))

/-- The step of R with its report is the step, then the taking of the report (R25). -/
theorem State.stepRunRamp_eq : s.stepRunRamp = s.runStepped.takeReport (s.drive.stepRun s.items.stopStep).2 := rfl

theorem State.stepRunRamp_moves : Moves A s s.stepRunRamp := by
  rw [State.stepRunRamp_eq]
  refine (Move.stepRun s).moves.trans ?_
  cases h : (s.drive.stepRun s.items.stopStep).2 with
  | nothing => exact .refl _
  | rampAtZero =>
    simp only [State.takeReport]
    refine (Move.bring s.runStepped .rampEnd).moves.trans ?_
    split
    · rename_i hp; exact settle_moves (by rw [hp]; rfl)
    · exact .refl _
  | descentAtZero =>
    simp only [State.takeReport]
    refine (Move.bring s.runStepped .rampEnd).moves.trans ?_
    have hz := Drive.stepRun_descentAtZero h
    split
    · rename_i hp; exact State.enterStopped_moves _ hp hz.1 hz.2
    · exact .refl _

theorem State.firstStep_moves : Moves A s s.firstStep := by
  unfold State.firstStep
  split
  · exact s.stepRunRamp_moves
  · exact .refl s

theorem State.stepRamps_moves : Moves A s s.stepRamps := by
  unfold State.stepRamps
  split
  · exact .refl s
  · rename_i h
    exact (Move.stepLevel s fun e => h (.inr e)).moves.trans (State.stepRunRamp_moves _)

theorem State.beginRamp_moves {o : Order} (ho : A o) (z : Bool) {x : Nat} (hx : x ≤ 32768)
    (h : s.run.state = .run ∨ s.run.state = .pausing) : Moves A s (s.beginRamp z x o.a) := by
  unfold State.beginRamp
  split
  · exact .refl s
  · exact (Move.ramp s z x ho hx h).moves.trans (State.firstStep_moves _)

/-! ### Stop requests (R82) -/

/-- The last noted causes are no part of the gear. -/
theorem State.noted_gear (v : Vector (Option Cause) 16) : State.gear { s with run := { s.run with noted := v } } = s.gear := rfl

theorem State.noteRequest_gear (q : StopRequest) : (s.noteRequest q).gear = s.gear := by
  have hb : (s.bump .stopsNoted).gear = s.gear := s.bump_gear _ (by decide)
  simp only [State.noteRequest]
  split
  · exact (State.post_gear _ _ _ _).trans hb
  · split
    · exact hb
    · exact (State.noted_gear _ _).trans ((State.post_gear _ _ _ _).trans hb)

theorem State.cancelCountdown_moves (q : StopRequest) (h : s.run.state = .countdown) : Moves A s (s.cancelCountdown q) :=
  (Moves.still (s.taken_gear q)).trans (State.returnToReady_moves _ (by simpa [State.taken] using h))

theorem State.beginDescent_moves (h : s.run.state = .stopping) : Moves A s s.beginDescent :=
  (Move.descend s h).moves.trans (State.firstStep_moves _)

/-- The states from which a class S request stops the node (R83). -/
theorem State.enterStopping_moves (q : StopRequest) (h : s.run.state.settlesTo .stopping = true) :
    Moves A s (s.enterStopping q) :=
  (Moves.still (s.taken_gear q)).trans <| (Move.episode _ q).moves.trans <|
    (settle_moves (by simpa [State.setStopField, State.latch, State.taken] using h)).trans (State.beginDescent_moves _ rfl)

theorem State.request_moves (q : StopRequest) : Moves A s (s.request q) := by
  have hf : Moves A s s.countFurther := .still s.countFurther_gear
  have hc : Moves A s (s.countFurther.bump .stopsCounted) := hf.trans (.still (State.bump_gear _ _ (by decide)))
  have hn : Moves A s (s.countFurther.noteRequest q) := hf.trans (.still (State.noteRequest_gear _ q))
  simp only [State.request]
  split
  case h_1 => exact .refl s
  case h_2 => exact hc
  case h_3 _ hoff _ => exact hf.trans (Move.trip s.countFurther q fun e => hoff e).moves
  case h_4 => exact hn
  case h_5 => exact hn
  case h_6 => exact hn
  case h_7 h => exact hf.trans (State.cancelCountdown_moves _ q h)
  case h_8 h => exact hf.trans (State.enterStopping_moves _ q (by rw [State.countFurther, h]; rfl))
  case h_9 h => exact hf.trans (State.enterStopping_moves _ q (by rw [State.countFurther, h]; rfl))
  case h_10 h => exact hf.trans (State.enterStopping_moves _ q (by rw [State.countFurther, h]; rfl))
  case h_11 => exact hc
  case h_12 => exact hc
  case h_13 => exact hn

theorem State.requestLocal_moves (c : Cause) (n : Nat) : Moves A s (s.requestLocal c n) := s.request_moves _

theorem State.isolatedTest_moves : Moves A s s.isolatedTest := by
  unfold State.isolatedTest
  split
  · exact s.requestLocal_moves _ _
  · exact .refl s

theorem State.assemblyTest_moves : Moves A s s.assemblyTest := by
  simp only [State.assemblyTest]
  split
  case isTrue h =>
    split
    · split
      · exact Moves.trans (t := { s with run := { s.run with assembly := s.run.assembly + 1 } }) (.still rfl) <|
          (Move.bring _ .assemblyComplete).moves.trans (State.enterStandby_moves _ h)
      · exact .still rfl
    · exact .still rfl
  case isFalse => exact .refl s

theorem State.abortCountdown_moves (j : Station) (h : s.run.state = .countdown) : Moves A s (s.abortCountdown j) := by
  unfold State.abortCountdown
  exact (Moves.still (State.post_gear s _ _ _)).trans <| (Move.abort _ (by simpa using h)).moves.trans
    (State.returnToReady_moves _ (by simpa using h))

theorem State.countdownCheck_moves : Moves A s s.countdownCheck := by
  unfold State.countdownCheck
  split
  · rename_i h
    split
    · exact s.abortCountdown_moves _ h
    · exact .refl s
  · exact .refl s

end Sys2Proof.Machine

namespace Sys2Proof.Machine

variable {A : Order → Prop} (s : State)

/-! ### The order unit -/

/-- Every entry of a list with a record inserted is that record or stood in it (R111). -/
theorem mem_insertOrder {o x : Order} {l : List Order} (h : x ∈ insertOrder o l) : x = o ∨ x ∈ l := by
  induction l with
  | nil => exact .inl (List.mem_singleton.mp h)
  | cons y l ih =>
    unfold insertOrder at h
    split at h
    · rcases List.mem_cons.mp h with rfl | h
      · exact .inr List.mem_cons_self
      · exact (ih h).imp id (List.mem_cons_of_mem y)
    · exact List.mem_cons.mp h

/-- A record inserted keeps the list to its own entries and the orders at hand. -/
theorem fileInserted {o : Order} (ho : A o) {l : List Order} : ∀ x ∈ insertOrder o l, x ∈ l ∨ A x := by
  intro x hx
  rcases mem_insertOrder hx with rfl | hx
  · exact .inr ho
  · exact .inl hx

/-- Raising a counter that is not tallied. -/
theorem State.bump_moves (c : Counter) (h : ∀ d ∈ tallied, d.place ≠ c.place) : Moves A s (s.bump c) :=
  .still (s.bump_gear c h)

theorem State.post_moves (k : EventKind) (a b : Word) : Moves A s (s.post k a b) := .still (s.post_gear k a b)

theorem State.originate_moves (k : OrderKind) (a b : Nat) (ho : A (s.newOrder k a b))
    (hk : k = .start → s.run.state = .ready) : Moves A s (s.originate k a b) := by
  have hf : Moves A s { s with orders := { s.orders with
      pending := insertOrder (s.newOrder k a b) s.orders.pending, highest := (s.newOrder k a b).epoch
      carried := some (s.newOrder k a b).epoch } } :=
    (Move.file s _ ho (fileInserted ho)).moves
  have hb := hf.trans (State.bump_moves _ .ordersOriginated (by decide))
  simp only [State.originate]
  split
  · rename_i h
    refine hb.trans (Move.count _ _ ho ?_).moves
    exact hk h
  · exact hb

theorem State.displace_moves {o : Order} (ho : A o) (e w : Order) : Moves A s (s.displace e w) := by
  have he : ∀ x ∈ s.orders.pending.erase e, x ∈ s.orders.pending ∨ A x := fun x hx => .inl (List.mem_of_mem_erase hx)
  have hb : Moves A s (State.bump .ordersDisplaced { s with orders := { s.orders with pending := s.orders.pending.erase e } }) :=
    (Move.file s _ ho he).moves.trans (State.bump_moves _ _ (by decide))
  have hr : ∀ t : State, Moves A s t →
      Moves A s (if t.run.state = .countdown ∧ t.run.countdown = some e.id then t.returnToReady else t) := by
    intro t ht
    split
    · rename_i h; exact ht.trans (t.returnToReady_moves h.1)
    · exact ht
  unfold State.displace
  refine hr _ ?_
  generalize State.bump .ordersDisplaced { s with orders := { s.orders with pending := s.orders.pending.erase e } } = t at hb
  split
  · exact hb.trans ((Move.file t { t.orders with carried := none } ho fun x hx => .inl hx).moves.trans (State.post_moves _ _ _ _))
  · exact hb

theorem State.considerStart_moves {o' : Order} (ho : A o') (f : Frame) (o : Order) : Moves A s (s.considerStart f o) := by
  unfold State.considerStart
  split
  · rename_i h
    split
    · exact (Move.count s _ ho h.2).moves
    · exact s.post_moves _ _ _
  · exact .refl s

theorem State.insertAdopted_moves (f : Frame) {o : Order} (ho : A o) : Moves A s (s.insertAdopted f o) := by
  exact (Move.file s _ ho (fileInserted ho)).moves.trans <| (State.bump_moves _ _ (by decide)).trans <| (State.post_moves _ _ _ _).trans
    (State.considerStart_moves _ ho f o)

theorem State.placeAdopted_moves (f : Frame) (j : Station) {o : Order} (ho : A o) : Moves A s (s.placeAdopted f j o) := by
  unfold State.placeAdopted
  split
  · exact s.requestLocal_moves _ _
  · split
    · exact s.requestLocal_moves _ _
    · exact s.insertAdopted_moves f ho

theorem State.adopt_moves (f : Frame) (j : Station) {o : Order} (ho : A o) : Moves A s (s.adopt f j o) := by
  unfold State.adopt
  split
  · exact .refl s
  split
  · exact .refl s
  split
  · exact .refl s
  split
  · exact (s.displace_moves ho _ _).trans (State.placeAdopted_moves _ f j ho)
  · split
    · exact s.requestLocal_moves _ _
    · exact s.placeAdopted_moves f j ho

theorem normalA_range {a : Nat} (h : a ≤ 65535) : 1 ≤ normalA a ∧ normalA a ≤ 65535 := by
  unfold normalA; split <;> omega

theorem normalB_le (k : OrderKind) (b : Nat) : normalB k b ≤ 32768 := by
  cases k <;> simp [normalB]

/-- An order read from a frame is normalised (R99, R193). -/
theorem Frame.order?_normalised {f : Frame} {o : Order} (h : f.order? = some o) : o.normalised := by
  obtain ⟨k, -, rfl⟩ := Option.map_eq_some_iff.mp h
  have ha := normalA_range (Nat.le_of_lt_succ f.argA.isLt)
  exact ⟨ha.1, ha.2, normalB_le _ _⟩

/-- The order part of a frame brings normalised orders alone. -/
theorem State.takeOrderPart_moves (f : Frame) (j : Station) : Moves Order.normalised s (s.takeOrderPart f j) := by
  have any : Order.normalised { kind := .pause, epoch := 0, origin := 0, domain := 0, effective := 0, a := 1, b := 0 } := by
    unfold Order.normalised; decide
  have h1 : Moves Order.normalised s (s.offerEpoch f.highest) := (Move.offer s _ any).moves
  simp only [State.takeOrderPart]
  split
  · exact h1
  · rename_i o h
    have h2 := h1.trans (Move.offer (s.offerEpoch f.highest) o.epoch any).moves
    split
    · exact h2.trans (State.adopt_moves _ f j (Frame.order?_normalised h))
    · exact h2

/-! ### The application of orders -/

theorem State.applyStart_moves {o : Order} (ho : A o) (h : s.run.state = .countdown) : Moves A s (s.applyStart o) := by
  refine (Move.applied s ho).moves.trans <| (Move.order _ .run ho ?_).moves.trans <| (Move.level _ ho).moves.trans <|
    (Move.start _ ho).moves.trans (State.beginRamp_moves _ ho true (le_refl _) (.inl rfl))
  simp [State.noteApplied, h, RunState.orderedTo]

theorem State.applyPause_moves {o : Order} (ho : A o) (h : s.run.state = .run) : Moves A s (s.applyPause o) := by
  refine (Move.applied s ho).moves.trans <| (Move.order _ .pausing ho ?_).moves.trans
    (State.beginRamp_moves _ ho false (Nat.zero_le _) (.inr rfl))
  simp [State.noteApplied, h, RunState.orderedTo]

theorem State.applyResume_moves {o : Order} (ho : A o) (h : s.run.state = .paused) : Moves A s (s.applyResume o) := by
  refine (Move.applied s ho).moves.trans <| (Move.order _ .run ho ?_).moves.trans <|
    (Move.start _ ho).moves.trans (State.beginRamp_moves _ ho true (le_refl _) (.inl rfl))
  simp [State.noteApplied, h, RunState.orderedTo]

theorem State.applyLevel_moves {o : Order} (ho : A o) (h : s.run.state = .run ∨ s.run.state = .pausing ∨ s.run.state = .paused) :
    Moves A s (s.applyLevel o) := by
  refine (Move.applied s ho).moves.trans (Move.rampLevel _ ho ?_).moves
  simpa [State.noteApplied] using h

theorem State.takeStart_moves {o : Order} (ho : A o) : Moves A s (s.takeStart o) := by
  simp only [State.takeStart]
  split
  · split
    · rename_i h; exact s.countdownCheck_moves.trans (State.applyStart_moves _ ho h)
    · exact s.countdownCheck_moves.trans (Move.inapplicable _ ho).moves
  · exact (Move.inapplicable s ho).moves

theorem State.settleOrder_moves {o : Order} (ho : A o) : Moves A s (s.settleOrder o) := by
  unfold State.settleOrder
  split
  case h_1 => exact s.takeStart_moves ho
  case h_2 h => exact s.applyPause_moves ho h
  case h_3 h => exact s.applyResume_moves ho h
  case h_4 h => exact s.applyLevel_moves ho (.inl h)
  case h_5 h => exact s.applyLevel_moves ho (.inr (.inl h))
  case h_6 h => exact s.applyLevel_moves ho (.inr (.inr h))
  case h_7 => exact (Move.inapplicable s ho).moves

theorem State.takeOrder_moves {o : Order} (ho : A o) : Moves A s (s.takeOrder o) :=
  (Move.file s _ ho fun _ hx => .inl (List.mem_of_mem_erase hx)).moves.trans (State.settleOrder_moves _ ho)

theorem State.takeDueOrders_moves : Moves (· ∈ s.orders.pending) s s.takeDueOrders := by
  unfold State.takeDueOrders
  split
  · exact .foldl _ _ (fun t o ho => t.takeOrder_moves (List.mem_of_mem_filter ho)) s
  · exact .refl s

/-! ### The peer table and the timebase -/

theorem State.setPeerState_gear (j : Station) (p : PeerState) (c : Nat) : (s.setPeerState j p c).gear = s.gear := by
  simp only [State.setPeerState]
  split
  · rfl
  · exact State.post_gear _ _ _ _

theorem State.rosterLoss_moves (j : Station) (c : Cause) (b : Bool) : Moves A s (s.rosterLoss j c b) := by
  have h : ∀ t : State, (if b && !s.rosterComplete then s.reportIncomplete else s) = t → Moves A s t := by
    rintro t rfl
    split
    · exact s.reportIncomplete_moves
    · exact .refl s
  simp only [State.rosterLoss]
  generalize ht : (if b && !s.rosterComplete then s.reportIncomplete else s) = t
  have hr := (h t ht).trans (t.requestLocal_moves c (stationNumber j))
  split
  · split
    · exact hr
    · exact hr
    · exact hr
    · exact hr
    · exact h t ht
  · exact h t ht

theorem State.movePeer_moves (j : Station) (p : PeerState) (n : Nat) (c : Cause) : Moves A s (s.movePeer j p n c) := by
  have h : Moves A s (s.setPeerState j p n) := .still (s.setPeerState_gear j p n)
  simp only [State.movePeer]
  split
  · exact h.trans (State.rosterLoss_moves _ _ _ _)
  · exact h

theorem State.reportProfile_gear (j : Station) (b : Byte) : (s.reportProfile j b).gear = s.gear := by
  unfold State.reportProfile
  split
  · rfl
  · exact State.post_gear _ _ _ _

theorem State.restartPeer_moves (j : Station) (b : Byte) : Moves A s (s.restartPeer j b) := by
  have h : ∀ t : State, t.gear = s.gear → Moves A s ((t.setPeerState j (t.evaluated j b) 5).reportProfile j b) := fun t ht =>
    .still ((State.reportProfile_gear _ _ _).trans ((State.setPeerState_gear _ _ _ _).trans ht))
  simp only [State.restartPeer]
  split
  · exact (h _ (State.onPeer_gear s j _)).trans (State.rosterLoss_moves _ _ _ _)
  · exact h _ rfl

theorem State.testProfile_moves (j : Station) (b : Byte) : Moves A s (s.testProfile j b) := by
  have ha : Moves A s (s.admission j b) := .still ((State.reportProfile_gear _ _ _).trans (State.setPeerState_gear _ _ _ _))
  simp only [State.testProfile]
  refine Moves.trans ?_ (.still (State.onPeer_gear _ _ _))
  split
  · exact ha
  · split
    · exact s.restartPeer_moves j b
    · exact .refl s

theorem State.recordFrame_gear (j : Station) (f : Frame) : (s.recordFrame j f).gear = s.gear := by
  simp only [State.recordFrame]
  split
  · exact (State.setPeerState_gear _ _ _ _).trans rfl
  · rfl

theorem State.writeWindow_gear (j : Station) (f : Frame) : (s.writeWindow j f).gear = s.gear := by
  simp only [State.writeWindow]
  split
  · split
    · exact (State.bump_gear _ _ (by decide)).trans rfl
    · rfl
  · rfl

theorem State.skewCheck_moves (j : Station) (f : Frame) : Moves A s (s.skewCheck j f) := by
  unfold State.skewCheck
  split
  · split
    · exact (s.bump_moves _ (by decide)).trans (State.requestLocal_moves _ _ _)
    · split
      · exact .refl s
      · split
        · exact .refl s
        · exact (s.bump_moves _ (by decide)).trans (State.requestLocal_moves _ _ _)
  · exact .refl s

theorem State.takeFrame_moves (j : Station) (f : Frame) (b : Bool) : Moves A s (s.takeFrame j f b) := by
  have h : Moves A s (if b then s.restartPeer j f.profile else s) := by
    split
    · exact s.restartPeer_moves _ _
    · exact .refl s
  exact h.trans <| (State.testProfile_moves _ j _).trans <| (Moves.still (State.recordFrame_gear _ j f)).trans <|
    (Moves.still (State.writeWindow_gear _ j f)).trans (State.skewCheck_moves _ j f)

theorem State.countMiss_moves (j : Station) : Moves A s (s.countMiss j) := by
  have h : ∀ t : State, t.gear = s.gear →
      Moves A s (if (t.peer j).state = .active ∧ t.items.missLimit < (t.peer j).cycles then
        ((t.bump .peerSilent).bring (.peerSilent j)).movePeer j .silent 3 .peerLost else t) := by
    intro t ht
    split
    · exact (Moves.still ht).trans <| (t.bump_moves .peerSilent (by decide)).trans <|
        (Move.bring _ _).moves.trans (State.movePeer_moves _ _ _ _ _)
    · exact .still ht
  simp only [State.countMiss]
  split
  · exact h _ rfl
  · exact .refl s

theorem State.takeStepLoss_moves (j : Station) : Moves A s (s.takeStepLoss j) := by
  unfold State.takeStepLoss
  split
  · exact s.movePeer_moves _ _ _ _
  · exact .refl s

theorem State.takeOffset_moves (j : Station) (o : Int) : Moves A s (s.takeOffset j o) := by
  unfold State.takeOffset
  split
  · exact (Moves.still (s.setPeerState_gear _ _ _)).trans (State.readyTest_moves _)
  · exact .refl s

theorem State.considerAdoption_gear (j : Station) (f : Frame) (x : Stamp) : (s.considerAdoption j f x).1.gear = s.gear := by
  unfold State.considerAdoption
  split
  · exact (State.post_gear _ _ _ _).trans ((State.bump_gear _ _ (by decide)).trans rfl)
  · rfl

theorem State.recordOffset_gear (j : Station) (r : Int) : (s.recordOffset j r).gear = s.gear := by
  simp only [State.recordOffset]
  split
  · rfl
  · exact (State.bump_gear _ _ (by decide)).trans rfl

theorem State.updateStepRun_moves (j : Station) (o : Int) : Moves A s (s.updateStepRun j o) := by
  unfold State.updateStepRun
  split
  · split
    · exact (Moves.still (State.onPeer_gear s j _)).trans <| (State.bump_moves _ .stepLoss (by decide)).trans <|
        (Move.bring _ _).moves.trans (State.takeStepLoss_moves _ j)
    · exact .still rfl
  · exact .still rfl

theorem State.takeTiming_moves (j : Station) (f : Frame) (a : Nat) (x : Stamp) : Moves A s (s.takeTiming j f a x) := by
  simp only [State.takeTiming]
  split
  · exact (Moves.still (s.considerAdoption_gear j f x)).trans <| (Moves.still (State.recordOffset_gear _ j _)).trans <|
      (State.updateStepRun_moves _ j _).trans (State.takeOffset_moves _ j _)
  · exact .refl s

theorem State.computeTrim_gear : s.computeTrim.gear = s.gear := by
  simp only [State.computeTrim]
  split
  · split <;> rfl
  · rfl

end Sys2Proof.Machine

namespace Sys2Proof.Machine

variable {A : Order → Prop} (s : State)

/-! ### The ring ports -/

/-- A fold of operations that each keep the gear keeps it. -/
theorem foldl_gear {α : Type} (f : State → α → State) (h : ∀ t a, (f t a).gear = t.gear) (l : List α) :
    (l.foldl f s).gear = s.gear := foldl_keeps State.gear f h l s

theorem Queued.countLost_gear (l : Lane) (q : Queued) : (q.countLost l s).gear = s.gear := by
  cases q
  · exact s.bump_gear _ (by cases l <;> decide)
  · exact s.bump_gear _ (by cases l <;> decide)

theorem State.emptyQueue_gear (l : Lane) : (s.emptyQueue l).gear = s.gear :=
  (State.onLane_gear _ _ _).trans (foldl_gear s _ (fun t q => q.countLost_gear t l) _)

theorem State.setSide_gear (d : Side) (x : SideState) (c : Nat) : (s.setSide d x c).gear = s.gear := State.post_gear _ _ _ _

theorem State.sideDown_moves (d : Side) (c : Nat) : Moves A s (s.sideDown d c) := by
  have h : ((s.setSide d .down c).onSide d (fun x => { x with hold := 500 })).gear = s.gear := s.setSide_gear d .down c
  simp only [State.sideDown]
  refine Moves.trans (.still ?_) (State.isolatedTest_moves _)
  split
  · exact (State.emptyQueue_gear _ _).trans h
  · exact h

theorem State.tryTraining_gear (d : Side) : (s.tryTraining d).gear = s.gear := by
  simp only [State.tryTraining]
  split
  · exact s.setSide_gear d .training 1
  · rfl

theorem State.retrain_gear (d : Side) (c : Nat) : (s.retrain d c).gear = s.gear :=
  (State.emptyQueue_gear _ _).trans (s.setSide_gear d .training c)

theorem State.cleanWord_gear (d : Side) : (s.cleanWord d).gear = s.gear := by
  simp only [State.cleanWord]
  split
  · exact (State.setSide_gear _ d .up 2).trans rfl
  · rfl

theorem State.takeLaneWord_gear (d : Side) (p f c : Byte) : (s.takeLaneWord d p f c).gear = s.gear := by
  have hw : (s.bump (.wordError d)).gear = s.gear := s.bump_gear _ (by cases d <;> decide)
  simp only [State.takeLaneWord]
  split
  · rfl
  · split
    · exact hw
    · split
      · rfl
      · exact s.cleanWord_gear d
  · split
    · exact hw
    · split
      · exact s.retrain_gear d 6
      · split
        · exact s.retrain_gear d 5
        · rfl

theorem State.badFrame_moves (d : Side) : Moves A s (s.badFrame d) := by
  have h : ((s.bump (.badFrame d)).onSide d (fun x => { x with fails := x.fails + 1 })).gear = s.gear :=
    s.bump_gear _ (by cases d <;> decide)
  simp only [State.badFrame]
  split
  · exact (Moves.still h).trans (State.sideDown_moves _ d 4)
  · exact .still h

theorem State.deliver_gear (l : Lane) (f : Frame) (x : Stamp) : (s.deliver l f x).gear = s.gear := by
  unfold State.deliver; split <;> rfl

theorem State.forward_gear (l : Lane) (f : Frame) (x : Stamp) : (s.forward l f x).gear = s.gear := by
  unfold State.forward
  split
  · exact s.bump_gear _ (by cases l <;> decide)
  · split
    · exact s.bump_gear _ (by cases l <;> decide)
    · exact (State.bump_gear _ _ (by cases l <;> decide)).trans rfl

theorem State.ownReturn_gear (l : Lane) (f : Frame) : (s.ownReturn l f).gear = s.gear := by
  have h : (s.bump (.ownReturned l)).gear = s.gear := s.bump_gear _ (by cases l <;> decide)
  simp only [State.ownReturn]
  split
  · exact h
  · exact (State.post_gear _ _ _ _).trans h

theorem State.goodFrame_gear (l : Lane) (f : Frame) (x : Stamp) : (s.goodFrame l f x).gear = s.gear := by
  simp only [State.goodFrame]
  split
  · exact (State.ownReturn_gear _ _ _).trans rfl
  · split
    · exact (State.deliver_gear _ _ _ _).trans ((State.bump_gear _ _ (by cases l <;> decide)).trans rfl)
    · exact (State.deliver_gear _ _ _ _).trans ((State.forward_gear _ _ _ _).trans rfl)

theorem State.takeArrival_moves (l : Lane) (c : Bool) (b : List Byte) : Moves A s (s.takeArrival l c b) := by
  have he : (s.endReception l).gear = s.gear := rfl
  simp only [State.takeArrival]
  split
  · exact .still he
  · split
    · exact .still ((State.bump_gear _ _ (by cases l <;> decide)).trans he)
    · exact .still he
  · split
    · split
      · exact .still ((State.goodFrame_gear _ _ _ _).trans he)
      · exact (Moves.still he).trans (State.badFrame_moves _ _)
    · exact (Moves.still he).trans (State.badFrame_moves _ _)

theorem State.startTransmission_gear (l : Lane) : (s.startTransmission l).gear = s.gear := by
  unfold State.startTransmission
  split
  · split <;> rfl
  · rfl

theorem State.examineLane_moves (l : Lane) : Moves A s (s.examineLane l) := by
  have h : ∀ t : State, t.gear = s.gear →
      Moves A s ((t.bring (.ringOpen l)).post .ringOpen (word l.code) (word (s.lane l).returnedSeq.toNat)) := fun t ht =>
    (Moves.still ht).trans <| (Move.bring t _).moves.trans (State.post_moves _ _ _ _)
  simp only [State.examineLane]
  split
  · exact .still rfl
  · split
    · exact h _ rfl
    · exact .still rfl

theorem State.examineLanes_moves : Moves A s s.examineLanes := by
  unfold State.examineLanes
  split
  · exact (s.examineLane_moves _).trans (State.examineLane_moves _ _)
  · exact .refl s

theorem State.placeOwn_gear (f : Frame) (l : Lane) : (s.placeOwn f l).gear = s.gear := by
  simp only [State.placeOwn]
  split
  · exact s.bump_gear _ (by cases l <;> decide)
  · split
    · exact (State.bump_gear _ _ (by cases l <;> decide)).trans rfl
    · rfl

theorem State.buildFrame_gear : s.buildFrame.gear = s.gear := by
  unfold State.buildFrame
  split
  · exact (State.placeOwn_gear _ _ _).trans (State.placeOwn_gear _ _ _)
  · rfl

/-! ### Acceptance -/

theorem State.takeStopPart_moves (j : Station) (f : Frame) : Moves A s (s.takeStopPart j f) := by
  simp only [State.takeStopPart]
  split
  · exact s.request_moves _
  · exact .refl s

theorem State.handOver_moves (j : Station) (c : Copy) (b : Bool) : Moves Order.normalised s (s.handOver j c b) :=
  (s.takeFrame_moves j c.frame b).trans <| (State.takeTiming_moves _ j _ _ _).trans <|
    (State.takeOrderPart_moves _ _ j).trans (State.takeStopPart_moves _ j _)

theorem State.reportPath_moves (j : Station) (e : FilterEntry) : Moves A s (s.reportPath j e) := by
  unfold State.reportPath
  split
  · exact (Move.bring s _).moves.trans (State.post_moves _ _ _ _)
  · exact .refl s

theorem State.countGap_gear (d : Nat) : (s.countGap d).gear = s.gear := by
  unfold State.countGap
  split
  · exact (State.count_gear _ _ _ (by decide)).trans (s.bump_gear _ (by decide))
  · rfl

theorem State.judge_moves (j : Station) (c : Copy) : Moves Order.normalised s (s.judge j c) := by
  have hb : ∀ {t : State} {d : Counter} {b : Bool}, (∀ x ∈ tallied, x.place ≠ d.place) → Moves Order.normalised s t →
      Moves Order.normalised s ((t.bump d).handOver j c b) := fun hd ht =>
    ht.trans ((State.bump_moves _ _ hd).trans (State.handOver_moves _ j c _))
  simp only [State.judge]
  split
  · exact hb (by decide) (.still rfl)
  split
  · unfold State.discardEqual
    split
    · exact .still (s.bump_gear _ (by decide))
    · exact .still ((State.bump_gear _ _ (by decide)).trans rfl)
  split
  · exact hb (by decide) ((s.reportPath_moves j _).trans (.still ((State.setFilter_gear _ _ _).trans (State.countGap_gear _ _))))
  · unfold State.takeStale
    split
    · exact .still ((State.bump_gear _ _ (by decide)).trans rfl)
    · exact hb (by decide) ((Move.bring s _).moves.trans (.still ((State.bump_gear _ _ (by decide)).trans rfl)))

theorem State.takeWaiting_moves (n : Nat) : Moves Order.normalised s (s.takeWaiting n) := by
  unfold State.takeWaiting
  split
  · exact .refl s
  · rename_i c _
    refine Moves.trans (t := { s with waiting := s.waiting.eraseIdx n }) (.still rfl) ?_
    unfold State.takeCopy
    split
    · exact State.bump_moves _ _ (by decide)
    · exact State.judge_moves _ _ _

/-! ### The servo side -/

theorem State.checkRange_moves : Moves A s s.checkRange := by
  have hb : Moves A s (s.bump .feedbackRange) := s.bump_moves _ (by decide)
  simp only [State.checkRange]
  split
  · exact .refl s
  · split
    · exact hb.trans (State.requestLocal_moves _ _ _)
    · exact hb

theorem State.checkLoss_moves : Moves A s s.checkLoss := by
  unfold State.checkLoss
  split
  · exact (Move.bring s _).moves.trans (State.requestLocal_moves _ _ _)
  · exact .refl s

theorem State.checkFeedback_moves : Moves A s s.checkFeedback := by
  unfold State.checkFeedback
  split
  · exact s.checkRange_moves.trans (State.checkLoss_moves _)
  · exact .refl s

/-- A new servo-ready state taken and posted (R60). -/
def State.readyShown (level : Bool) (s : State) : State :=
  State.post .servoReady (flagWord level) s.time.cycle { s with servo := { s.servo with
    ready := level, staleRun := if level then 0 else s.servo.staleRun } }

/-- What a change of servo-ready brings: a request in motion, otherwise the READY test (R60 to R62). -/
theorem State.setReady_of_ne {level : Bool} (h : s.servo.ready ≠ level) : s.setReady level =
    if !level && (s.readyShown level).run.state.inMotion then
      (s.readyShown level).requestLocal .servoNotReady (s.readyShown level).ownNumber
    else (s.readyShown level).readyTest := by
  rw [State.setReady, if_neg h]
  rfl

theorem State.setReady_of_eq {level : Bool} (h : s.servo.ready = level) : s.setReady level = s := by
  rw [State.setReady, if_pos h]

theorem State.readyShown_gear (level : Bool) : (s.readyShown level).gear = s.gear := (State.post_gear _ _ _ _).trans rfl

theorem State.readyShown_items (level : Bool) : (s.readyShown level).port.items = s.port.items :=
  (State.items_of_steady (State.steady_of_quiet (State.post_quiet _ _ _ _))).trans rfl

theorem State.latchFeedback_gear : s.latchFeedback.gear = s.gear := by
  unfold State.latchFeedback
  split
  · rfl
  · exact (State.bump_gear _ _ (by decide)).trans rfl

/-! ### The acts of a boundary -/

/-- No order is at hand. -/
def noOrder : Order → Prop := fun _ => False

/-- Every act but that of the orders moves no order. -/
theorem State.act_moves_noOrder {a : BoundaryAction} (ha : a ≠ .orders) : Moves noOrder s (s.act a) := by
  cases a with
  | servoChecks => exact s.checkFeedback_moves
  | rampStep => exact s.stepRamps_moves
  | assemblyTest => exact s.assemblyTest_moves
  | countdownCheck => exact s.countdownCheck_moves
  | orders => exact absurd rfl ha
  | trim => exact .still s.computeTrim_gear
  | peerMiss j => exact s.countMiss_moves j
  | ringClosure => exact s.examineLanes_moves
  | isolated => exact s.isolatedTest_moves
  | frameBuild => exact .still s.buildFrame_gear

/-- An act of a boundary moves the pending orders alone. -/
theorem State.act_moves (a : BoundaryAction) : Moves (· ∈ s.orders.pending) s (s.act a) := by
  by_cases ha : a = .orders
  · subst ha; exact s.takeDueOrders_moves
  · exact (s.act_moves_noOrder ha).mono fun o ho => ho.elim

theorem State.countPulse_moves : Moves A s s.countPulse := by
  unfold State.countPulse
  split
  · exact .refl s
  · split
    · exact Moves.trans (t := { s with sched := { s.sched with pulse := 0, mark := false } }) (.still rfl)
        (Move.bring _ .pulseEnd).moves
    · exact .still rfl

/-- What stands when the acts of a boundary begin: the cycle opened, the feedback latched, the pulse counted. -/
def State.opened : State := s.openCycle.latchFeedback.countPulse

theorem State.opened_moves : Moves A s s.opened :=
  Moves.trans (t := s.openCycle.latchFeedback) (.still ((State.latchFeedback_gear _).trans rfl))
    (State.countPulse_moves _)

/-! ### The reports of an instant -/

/-- A marker PAUSE originates the pause order of the configuration (R103). -/
theorem State.runMarker_moves (k : Nat) (m : MarkerSlot) (r : PosRecord)
    (hA : A (s.newOrder .pause s.items.pauseLength 0)) : Moves A s (s.runMarker k m r) := by
  unfold State.runMarker
  split
  · exact .still rfl
  · split
    · exact s.originate_moves _ _ _ hA (fun h => by cases h)
    · exact s.post_moves _ _ _
  · exact .refl s

/-- A fold under a condition that every member keeps. -/
theorem Moves.foldl_where {α : Type} (P : State → Prop) (f : State → α → State) (l : List α)
    (h : ∀ t, P t → ∀ a ∈ l, Moves A t (f t a) ∧ P (f t a)) {s : State} (hs : P s) : Moves A s (l.foldl f s) := by
  induction l generalizing s with
  | nil => exact .refl s
  | cons a l ih =>
    obtain ⟨hm, hp⟩ := h s hs a List.mem_cons_self
    exact hm.trans (ih (fun t ht b hb => h t ht b (List.mem_cons_of_mem a hb)) hp)

theorem State.evaluateMarkers_moves (r : PosRecord)
    (hA : ∀ t : State, t.items = s.items → A (t.newOrder .pause t.items.pauseLength 0)) :
    Moves A s (s.evaluateMarkers r) := by
  unfold State.evaluateMarkers
  refine Moves.foldl_where (fun t => t.items = s.items) _ _ (fun t ht x _ => ?_) rfl
  split
  · have hp : (t.post .marker (word x.1) r.detail).items = s.items :=
      (State.items_of_steady (State.steady_of_quiet (t.post_quiet _ _ _))).trans ht
    refine ⟨(t.post_moves _ _ _).trans (State.runMarker_moves _ _ _ _ (hA _ hp)), ?_⟩
    exact (State.items_of_steady (State.steady_of_quiet (State.runMarker_quiet _ _ _ _))).trans hp
  · exact ⟨.refl t, ht⟩

/-- A report of an instant moves no order but the pause order of a marker. -/
theorem State.report_moves (f : InstantFacts) (r : InstantReport)
    (hA : ∀ t : State, t.items = s.items → A (t.newOrder .pause t.items.pauseLength 0)) : Moves A s (s.report f r) := by
  cases r with
  | coupling =>
    simp only [State.report]
    split
    · exact .refl s
    · exact s.post_moves _ _ _
  | segment =>
    simp only [State.report]
    split
    · exact .refl s
    · split
      · exact .refl s
      · split
        · exact (s.post_moves _ _ _).trans (State.requestLocal_moves _ _ _)
        · exact s.post_moves _ _ _
  | underrun =>
    simp only [State.report]
    split
    · exact .refl s
    · split
      · exact s.requestLocal_moves _ _
      · exact .refl s
  | markers =>
    simp only [State.report]
    split
    · exact .refl s
    · split
      · exact s.evaluateMarkers_moves _ hA
      · exact .refl s
  | late j =>
    simp only [State.report]
    split
    · exact (Move.bring s _).moves.trans (State.requestLocal_moves _ _ _)
    · exact .refl s

/-- The reports of an instant, in any order. -/
theorem State.reports_moves (f : InstantFacts) (l : List InstantReport)
    (hA : ∀ t : State, t.items = s.items → A (t.newOrder .pause t.items.pauseLength 0)) :
    Moves A s (l.foldl (State.report f) s) :=
  Moves.foldl_where (fun t => t.items = s.items) _ l (fun t ht r _ =>
    ⟨t.report_moves f r (fun u hu => hA u (hu.trans ht)),
      (State.items_of_steady (State.steady_of_quiet (t.report_quiet f r))).trans ht⟩) rfl

end Sys2Proof.Machine

namespace Sys2Proof.Machine

variable (s : State)

/-! ### What the moves change -/

@[simp] theorem State.installDescent_run : s.installDescent.run = s.run := rfl

@[simp] theorem State.freeze_run : s.freeze.run = s.run := rfl
@[simp] theorem State.freeze_drive : s.freeze.drive = { s.drive with levelRamp := none, runRamp := none } := rfl
@[simp] theorem State.freeze_orders : s.freeze.orders = s.orders := rfl
@[simp] theorem State.freeze_sched : s.freeze.sched = s.sched := rfl
@[simp] theorem State.freeze_scratch : s.freeze.scratch = s.scratch := rfl
@[simp] theorem State.freeze_tally : s.freeze.tally = s.tally := rfl
@[simp] theorem State.setHold_tally (b : Bool) : (s.setHold b).tally = s.tally := rfl

/-- The gear of a request that opens an episode: the stop field and the presence of the record alone change (R92, R93). -/
theorem State.episode_gear (q : StopRequest) : ((s.latch q).setStopField q).gear =
    (s.run.state, s.run.trip, s.run.countdown, some { origin := q.origin, reason := q.reason }, true, s.drive, s.orders,
      s.sched.hold, s.scratch, s.tally) := by
  have h : ((s.latch q).setStopField q).run.record.isSome = true := by simp [State.latch, State.setStopField]
  unfold State.gear
  rw [h]
  rfl

/-- What a trip leaves (R20, R85, R92, R93, R97). -/
theorem State.enterTripped_gear (q : StopRequest) : (s.enterTripped q).gear =
    (.tripped, true, if s.run.state = .countdown then none else s.run.countdown,
      some { origin := q.origin, reason := q.reason }, true, { s.drive with levelRamp := none, runRamp := none }, s.orders,
      true, s.scratch, s.tally) := by
  have h : ∀ t : State, (t.setStopField q).gear = ((s.latch q).setStopField q).gear →
      ((((t.setStopField q).changeState .tripped).freeze).setHold true).gear =
        (.tripped, true, if s.run.state = .countdown then none else s.run.countdown,
          some { origin := q.origin, reason := q.reason }, true, { s.drive with levelRamp := none, runRamp := none },
          s.orders, true, s.scratch, s.tally) := by
    intro t ht
    rw [State.episode_gear] at ht
    simp only [State.gear, Prod.mk.injEq] at ht
    obtain ⟨h1, h2, h3, h4, h5, h6, h7, h8, h9, h10⟩ := ht
    simp [State.gear, State.changeState_trip, h1, h3, h4, h5, h6, h7, h9, h10]
  have ht : ∀ t : State, t.gear = s.gear → ((t.latch q).setStopField q).gear = ((s.latch q).setStopField q).gear := by
    intro t ht
    obtain ⟨h1, h2, h3, h4, h5, h6, h7, h8, h9, h10⟩ := State.gear_eq_iff.mp ht
    rw [State.episode_gear, State.episode_gear, h1, h2, h3, h6, h7, h8, h9, h10]
  unfold State.enterTripped
  rw [State.rewind_gear]
  dsimp only
  split
  · refine h _ (Eq.trans ?_ (ht _ (s.taken_gear q)))
    simp only [State.gear, State.escalate, State.setStopField, Option.isSome_map]
    rfl
  · exact h _ (ht _ (s.taken_gear q))

theorem State.enterTripped_fields (q : StopRequest) :
    (s.enterTripped q).run.state = .tripped ∧ (s.enterTripped q).run.trip = true ∧
    (s.enterTripped q).run.countdown = (if s.run.state = .countdown then none else s.run.countdown) ∧
    (s.enterTripped q).run.stopField = some { origin := q.origin, reason := q.reason } ∧
    (s.enterTripped q).run.record.isSome = true ∧
    (s.enterTripped q).drive = { s.drive with levelRamp := none, runRamp := none } ∧
    (s.enterTripped q).orders = s.orders ∧ (s.enterTripped q).sched.hold = true ∧
    (s.enterTripped q).scratch = s.scratch ∧ (s.enterTripped q).tally = s.tally := by
  simpa [State.gear] using s.enterTripped_gear q

theorem State.emptyWindows_run : s.emptyWindows.run = s.run := by
  unfold State.emptyWindows
  exact foldl_keeps State.run _ (fun t j => t.onPeer_run j _) stations s

theorem State.emptyWindows_gear : s.emptyWindows.gear = s.gear := by
  unfold State.emptyWindows
  exact foldl_gear s _ (fun t j => t.onPeer_gear j _) stations

/-- What an entry into COUNTDOWN leaves (R76). -/
theorem State.enterCountdown_gear (i : OrderId) : (s.enterCountdown i).gear =
    (.countdown, s.run.trip, some i, s.run.stopField, s.run.record.isSome, s.drive, s.orders, s.sched.hold,
      s.scratch, s.tally) := by
  have h : ∀ (t : State) (r : Run), State.gear { t with run := r } = (r.state, r.trip, r.countdown, r.stopField,
      r.record.isSome, t.drive, t.orders, t.sched.hold, t.scratch, t.tally) := fun _ _ => rfl
  unfold State.enterCountdown
  rw [State.emptyWindows_gear, h]
  simp [State.changeState_trip]

theorem State.enterCountdown_fields (i : OrderId) :
    (s.enterCountdown i).run.state = .countdown ∧ (s.enterCountdown i).run.trip = s.run.trip ∧
    (s.enterCountdown i).run.countdown = some i ∧ (s.enterCountdown i).run.stopField = s.run.stopField ∧
    (s.enterCountdown i).run.record.isSome = s.run.record.isSome ∧ (s.enterCountdown i).drive = s.drive ∧
    (s.enterCountdown i).orders = s.orders ∧ (s.enterCountdown i).sched.hold = s.sched.hold ∧
    (s.enterCountdown i).scratch = s.scratch ∧ (s.enterCountdown i).tally = s.tally := by
  simpa [State.gear] using s.enterCountdown_gear i

@[simp] theorem State.noteApplied_run (o : Order) : (s.noteApplied o).run = s.run := by simp [State.noteApplied]
@[simp] theorem State.noteApplied_drive (o : Order) : (s.noteApplied o).drive = s.drive := by simp [State.noteApplied]
@[simp] theorem State.noteApplied_orders (o : Order) : (s.noteApplied o).orders = s.orders := by simp [State.noteApplied]
@[simp] theorem State.noteApplied_scratch (o : Order) : (s.noteApplied o).scratch = s.scratch := by simp [State.noteApplied]
@[simp] theorem State.noteApplied_sched (o : Order) : (s.noteApplied o).sched = s.sched := by simp [State.noteApplied]
@[simp] theorem State.declareInapplicable_run (o : Order) : (s.declareInapplicable o).run = s.run := by
  simp [State.declareInapplicable]
@[simp] theorem State.declareInapplicable_drive (o : Order) : (s.declareInapplicable o).drive = s.drive := by
  simp [State.declareInapplicable]
@[simp] theorem State.declareInapplicable_orders (o : Order) : (s.declareInapplicable o).orders = s.orders := by
  simp [State.declareInapplicable]
@[simp] theorem State.declareInapplicable_scratch (o : Order) : (s.declareInapplicable o).scratch = s.scratch := by
  simp [State.declareInapplicable]
@[simp] theorem State.declareInapplicable_sched (o : Order) : (s.declareInapplicable o).sched = s.sched := by
  simp [State.declareInapplicable]
@[simp] theorem State.offerEpoch_pending (e : Half) : (s.offerEpoch e).orders.pending = s.orders.pending := rfl
@[simp] theorem State.setLevel_drive (b : Nat) :
    (s.setLevel b).drive = { s.drive with level := b, levelRamp := none } := rfl
@[simp] theorem State.setLevel_run (b : Nat) : (s.setLevel b).run = s.run := rfl

/-- The R descriptor steps R and itself alone. -/
theorem Drive.stepRun_frame (k : Nat) (d : Drive) :
    (d.stepRun k).1 = { d with ramp := (d.stepRun k).1.ramp, runRamp := (d.stepRun k).1.runRamp } := by
  unfold Drive.stepRun; split <;> rfl

/-- The L descriptor steps L and itself alone. -/
theorem Drive.stepLevel_frame (d : Drive) :
    d.stepLevel = { d with level := d.stepLevel.level, levelRamp := d.stepLevel.levelRamp } := by
  unfold Drive.stepLevel; split <;> rfl

/-- Without an R descriptor nothing steps. -/
theorem Drive.stepRun_none {k : Nat} {d : Drive} (h : d.runRamp = none) : d.stepRun k = (d, .nothing) := by
  unfold Drive.stepRun; rw [h]

theorem State.runStepped_of_none (h : s.drive.runRamp = none) : s.runStepped = s := by
  simp [State.runStepped, Drive.stepRun_none h, Scratch.atZero]

/-- Where a ramp of L is begun, only L and its descriptor change (R23). -/
theorem State.rampLevel_frame (b n : Nat) :
    (s.rampLevel b n).drive = { s.drive with level := (s.rampLevel b n).drive.level
                                             levelRamp := (s.rampLevel b n).drive.levelRamp } := by
  unfold State.rampLevel
  dsimp only
  split
  · rw [Drive.stepLevel_frame]
  · rfl

end Sys2Proof.Machine

namespace Sys2Proof.Machine

variable {A : Order → Prop} {s t : State}

/-! ### The run laws under the moves -/

/-- The trip line that a run state asks for (R97). -/
def RunState.tripRule (r : RunState) (line : Bool) : Prop :=
  match r with
  | .offline => line = true
  | .tripped => line = true
  | .assembly => True
  | _ => line = false

theorem State.tripLaw_iff (s : State) : s.tripLaw ↔ s.run.state.tripRule s.run.trip := by
  unfold State.tripLaw RunState.tripRule
  cases s.run.state <;> rfl

theorem RunState.tripRule_change {a r : RunState} {b : Bool} (h : a.settlesTo r = true ∨ a.orderedTo r = true)
    (hb : a.tripRule b) : r.tripRule (if r = .standby then false else if r = .tripped then true else b) := by
  cases a <;> cases r <;> simp_all [RunState.settlesTo, RunState.orderedTo, RunState.tripRule]

/-- A move that leaves run state and trip line keeps the law of the line. -/
theorem State.tripLaw_of_eq (hr : t.run.state = s.run.state) (hb : t.run.trip = s.run.trip) (h : s.tripLaw) : t.tripLaw := by
  rw [State.tripLaw_iff] at h ⊢
  rwa [hr, hb]

theorem Move.keeps_tripLaw (m : Move A s t) (h : s.tripLaw) : t.tripLaw := by
  cases m with
  | still e =>
    obtain ⟨h1, h2, -⟩ := State.gear_eq_iff.mp e
    exact State.tripLaw_of_eq h1 h2 h
  | change _ r e =>
    rw [State.tripLaw_iff] at h ⊢
    rw [State.changeState_trip]
    exact RunState.tripRule_change (.inl e) h
  | order _ r _ e =>
    rw [State.tripLaw_iff] at h ⊢
    rw [State.changeState_trip]
    exact RunState.tripRule_change (.inr e) h
  | stop _ hs =>
    rw [State.tripLaw_iff] at h ⊢
    rw [State.changeState_trip]
    rw [hs] at h
    exact h
  | trip _ q =>
    rw [State.tripLaw_iff]
    obtain ⟨h1, h2, -⟩ := s.enterTripped_fields q
    rw [h1, h2]
    exact rfl
  | count _ i _ e =>
    rw [State.tripLaw_iff] at h ⊢
    obtain ⟨h1, h2, -⟩ := s.enterCountdown_fields i
    rw [h1, h2]
    rw [e] at h
    exact h
  | applied => exact State.tripLaw_of_eq (by simp) (by simp) h
  | inapplicable => exact State.tripLaw_of_eq (by simp) (by simp) h
  | bring | episode | descend | stepRun | stepLevel | abort | file | offer | level | start | ramp | rampLevel => exact h

/-- A move that leaves run state and countdown order keeps their law. -/
theorem State.countdownLaw_of_eq (hr : t.run.state = s.run.state) (hb : t.run.countdown = s.run.countdown)
    (h : s.countdownLaw) : t.countdownLaw := by
  unfold State.countdownLaw at h ⊢
  rwa [hr, hb]

/-- A change of state to another state than COUNTDOWN keeps the law of the countdown order (R76). -/
theorem State.changeState_countdownLaw {r : RunState} (hr : r ≠ .countdown) (h : s.countdownLaw) :
    (s.changeState r).countdownLaw := by
  unfold State.countdownLaw at h ⊢
  rw [State.changeState_countdown, State.changeState_state]
  split
  · simp [hr]
  · rename_i hs; simp [h, hr, hs]

theorem RunState.not_countdown_of_change {a r : RunState} (h : a.settlesTo r = true ∨ a.orderedTo r = true) :
    r ≠ .countdown := by
  cases a <;> cases r <;> simp_all [RunState.settlesTo, RunState.orderedTo]

theorem Move.keeps_countdownLaw (m : Move A s t) (h : s.countdownLaw) : t.countdownLaw := by
  cases m with
  | still e =>
    obtain ⟨h1, -, h2, -⟩ := State.gear_eq_iff.mp e
    exact State.countdownLaw_of_eq h1 h2 h
  | change _ r e => exact State.changeState_countdownLaw (RunState.not_countdown_of_change (.inl e)) h
  | order _ r _ e => exact State.changeState_countdownLaw (RunState.not_countdown_of_change (.inr e)) h
  | stop => exact State.changeState_countdownLaw (by decide) h
  | trip _ q =>
    obtain ⟨h1, -, h2, -⟩ := s.enterTripped_fields q
    unfold State.countdownLaw at h ⊢
    rw [h1, h2]
    split
    · rfl
    · rename_i hs; simp [h, hs]
  | count _ i _ e =>
    obtain ⟨h1, -, h2, -⟩ := s.enterCountdown_fields i
    unfold State.countdownLaw
    rw [h1, h2]
    rfl
  | applied => exact State.countdownLaw_of_eq (by simp) (by simp) h
  | inapplicable => exact State.countdownLaw_of_eq (by simp) (by simp) h
  | bring | episode | descend | stepRun | stepLevel | abort | file | offer | level | start | ramp | rampLevel => exact h

/-- The ramps that a run state allows (R20, R21, R76, R80). -/
def RunState.restRule (r : RunState) (d : Drive) : Prop :=
  (r.atRest = true → d.ramp = 0 ∧ d.runRamp = none) ∧ (r = .tripped → d.levelRamp = none ∧ d.runRamp = none)

theorem State.restLaw_iff (s : State) : s.restLaw ↔ s.run.state.restRule s.drive := Iff.rfl

theorem RunState.restRule_change {a r : RunState} {d : Drive} (h : a.settlesTo r = true ∨ a.orderedTo r = true)
    (hd : a.restRule d) : r.restRule d := by
  cases a <;> cases r <;> simp_all [RunState.settlesTo, RunState.orderedTo, RunState.restRule, RunState.atRest]

/-- A run state in motion asks nothing of the ramps. -/
theorem RunState.restRule_of_motion {r : RunState} {d : Drive} (h : r.atRest = false) (h' : r ≠ .tripped) : r.restRule d :=
  ⟨fun e => absurd e (by simp [h]), fun e => absurd e h'⟩

theorem State.restLaw_of_eq (hr : t.run.state = s.run.state) (hd : t.drive = s.drive) (h : s.restLaw) : t.restLaw := by
  rw [State.restLaw_iff] at h ⊢
  rwa [hr, hd]

theorem Move.keeps_restLaw (m : Move A s t) (h : s.restLaw) : t.restLaw := by
  cases m with
  | still e =>
    obtain ⟨h1, -, -, -, -, h2, -⟩ := State.gear_eq_iff.mp e
    exact State.restLaw_of_eq h1 h2 h
  | change _ r e =>
    rw [State.restLaw_iff] at h ⊢
    rw [State.changeState_drive]
    exact RunState.restRule_change (.inl e) h
  | order _ r _ e =>
    rw [State.restLaw_iff] at h ⊢
    rw [State.changeState_drive]
    exact RunState.restRule_change (.inr e) h
  | stop _ _ hr hd =>
    refine ⟨fun _ => ?_, fun e => absurd e (by simp)⟩
    rw [State.changeState_drive]
    exact ⟨hr, hd⟩
  | trip _ q =>
    obtain ⟨h1, -, -, -, -, h2, -⟩ := s.enterTripped_fields q
    rw [State.restLaw_iff, h1, h2]
    exact ⟨fun e => absurd e (by decide), fun _ => ⟨rfl, rfl⟩⟩
  | count _ i _ e =>
    obtain ⟨h1, -, -, -, -, h2, -⟩ := s.enterCountdown_fields i
    rw [State.restLaw_iff] at h ⊢
    rw [h1, h2]
    rw [e] at h
    exact ⟨fun _ => h.1 rfl, fun e => absurd e (by decide)⟩
  | descend _ e => exact RunState.restRule_of_motion (by simp [e, RunState.atRest]) (by simp [e])
  | stepRun =>
    by_cases hd : s.drive.runRamp = none
    · rw [s.runStepped_of_none hd]; exact h
    · exact ⟨fun e => absurd (h.1 e).2 hd, fun e => absurd (h.2 e).2 hd⟩
  | stepLevel _ e =>
    refine ⟨fun hr => ?_, fun hr => absurd hr e⟩
    have := h.1 hr
    simp only [State.levelStepped]
    rw [Drive.stepLevel_frame]
    exact this
  | level => exact ⟨h.1, fun e => ⟨rfl, (h.2 e).2⟩⟩
  | ramp _ z x _ _ e =>
    refine RunState.restRule_of_motion ?_ ?_
    all_goals
      simp only [State.installRamp]
      rcases e with e | e <;> simp [e, RunState.atRest]
  | rampLevel _ _ e =>
    refine RunState.restRule_of_motion ?_ ?_
    all_goals
      simp only [State.rampLevel]
      rcases e with e | e | e <;> simp [e, RunState.atRest]
  | applied => exact State.restLaw_of_eq (by simp) (by simp) h
  | inapplicable => exact State.restLaw_of_eq (by simp) (by simp) h
  | bring | episode | abort | file | offer | start => exact h

/-! ### OFFLINE and TRIPPED under the moves -/

/-- No move enters OFFLINE or leaves it (R69). -/
theorem Move.offline_iff (m : Move A s t) : t.run.state = .offline ↔ s.run.state = .offline := by
  have hc : ∀ {a r : RunState}, (a.settlesTo r = true ∨ a.orderedTo r = true) → a ≠ .offline ∧ r ≠ .offline := by
    intro a r h; cases a <;> cases r <;> simp_all [RunState.settlesTo, RunState.orderedTo]
  cases m with
  | still e => rw [(State.gear_eq_iff.mp e).1]
  | change _ r e => simp [hc (.inl e)]
  | order _ r _ e => simp [hc (.inr e)]
  | stop _ hs => simp [hs]
  | trip _ q e => simp [(s.enterTripped_fields q).1, e]
  | count _ i _ e => simp [(s.enterCountdown_fields i).1, e]
  | applied => simp
  | inapplicable => simp
  | bring | episode | descend | stepRun | stepLevel | abort | file | offer | level | start | ramp | rampLevel => exact Iff.rfl

theorem Moves.offline_iff (h : Moves A s t) : t.run.state = .offline ↔ s.run.state = .offline := by
  induction h with
  | refl => exact Iff.rfl
  | tail _ m ih => exact m.offline_iff.trans ih

end Sys2Proof.Machine

namespace Sys2Proof.Machine

variable {A : Order → Prop} {s t : State}

/-! ### The factors under the moves -/

/-- The factor law within a step: L, R, the values before a boundary's stepping, the descriptors and the pending orders in their
ranges. Coefficients, held sample and items are steady. -/
structure State.factors (s : State) : Prop where
  level : s.drive.level ≤ 32768
  ramp : s.drive.ramp ≤ 32768
  stepped : ∀ x, s.scratch.stepped = some x → x.1 ≤ 32768 ∧ x.2 ≤ 32768
  levelRamp : ∀ r, s.drive.levelRamp = some r → r.sound
  runRamp : ∀ r, s.drive.runRamp = some (.ramp r) → r.sound
  orders : ∀ o ∈ s.orders.pending, o.normalised

/-- The factors of states with the same drive unit, scratch values and pending orders. -/
theorem State.factors_of_eq (hd : t.drive = s.drive) (hx : t.scratch.stepped = s.scratch.stepped)
    (ho : t.orders.pending = s.orders.pending) (h : s.factors) : t.factors := by
  obtain ⟨h1, h2, h3, h4, h5, h6⟩ := h
  constructor
  · rwa [hd]
  · rwa [hd]
  · rwa [hx]
  · rwa [hd]
  · rwa [hd]
  · rwa [ho]

/-- A step of a sound ramp stays in the factor range, and the ramp stays sound while steps are left (R22). -/
theorem Ramp.sound_step {r : Ramp} (h : r.sound) :
    r.value (r.step + 1) ≤ 32768 ∧ (¬ r.length ≤ r.step + 1 → Ramp.sound { r with step := r.step + 1 }) := by
  obtain ⟨h1, h2, h3, h4⟩ := h
  have hv := r.value_mem (k := r.step + 1) (by omega) (by omega)
  exact ⟨hv.2.trans (max_le h1 h2), fun hl => ⟨h1, h2, Nat.lt_of_not_le hl, h4⟩⟩

/-- A ramp newly begun is sound (R23, R99). -/
theorem Ramp.sound_new {v x n : Nat} (hv : v ≤ 32768) (hx : x ≤ 32768) (hn : 1 ≤ n ∧ n ≤ 65535) :
    Ramp.sound { start := v, target := x, length := n, step := 0 } := ⟨hv, hx, hn.1, hn.2⟩

theorem Drive.stepLevel_sound {d : Drive} (hl : d.level ≤ 32768) (hr : ∀ r, d.levelRamp = some r → r.sound) :
    d.stepLevel.level ≤ 32768 ∧ ∀ r, d.stepLevel.levelRamp = some r → r.sound := by
  unfold Drive.stepLevel
  split
  · exact ⟨hl, hr⟩
  · rename_i r hd
    obtain ⟨h1, h2⟩ := Ramp.sound_step (hr r hd)
    refine ⟨h1, fun x hx => ?_⟩
    dsimp only at hx
    split at hx
    · cases hx
    · cases hx; exact h2 ‹_›

theorem Drive.stepRun_sound {k : Nat} {d : Drive} (hl : d.ramp ≤ 32768) (hr : ∀ r, d.runRamp = some (.ramp r) → r.sound) :
    (d.stepRun k).1.ramp ≤ 32768 ∧ ∀ r, (d.stepRun k).1.runRamp = some (.ramp r) → r.sound := by
  unfold Drive.stepRun
  split
  · exact ⟨hl, hr⟩
  · rename_i r hd
    obtain ⟨h1, h2⟩ := Ramp.sound_step (hr r hd)
    refine ⟨h1, fun x hx => ?_⟩
    dsimp only at hx
    split at hx
    · cases hx
    · rename_i hlast
      cases hx
      exact h2 (by simpa using hlast)
  · refine ⟨(Nat.sub_le _ _).trans hl, fun x hx => ?_⟩
    dsimp only at hx
    split at hx <;> cases hx

/-- A value from which a ramp begun now starts lies in the factor range (R23). -/
theorem State.factors.rampBase_le (h : s.factors) : s.rampBase ≤ 32768 := by
  unfold State.rampBase
  split
  · exact (h.stepped _ ‹_›).2
  · exact h.ramp

theorem State.factors.levelBase_le (h : s.factors) : s.levelBase ≤ 32768 := by
  unfold State.levelBase
  split
  · exact (h.stepped _ ‹_›).1
  · exact h.level

/-- The scratch after a report keeps the factor range (R88). -/
theorem Scratch.atZero_le {x : Scratch} {r : RampReport} (h : ∀ y, x.stepped = some y → y.1 ≤ 32768 ∧ y.2 ≤ 32768) :
    ∀ y, (x.atZero r).stepped = some y → y.1 ≤ 32768 ∧ y.2 ≤ 32768 := by
  unfold Scratch.atZero
  split
  · exact h
  · intro y hy
    obtain ⟨z, hz, rfl⟩ := Option.map_eq_some_iff.mp hy
    exact ⟨(h z hz).1, Nat.zero_le _⟩

/-- With normalised orders at hand every move keeps the factors in their ranges. -/
theorem Move.keeps_factors (hA : ∀ o, A o → o.normalised) (m : Move A s t) (h : s.factors) : t.factors := by
  cases m with
  | still e =>
    obtain ⟨-, -, -, -, -, h1, h2, -, h3, -⟩ := State.gear_eq_iff.mp e
    exact State.factors_of_eq h1 (by rw [h3]) (by rw [h2]) h
  | change _ r e => exact State.factors_of_eq (by simp) (by simp) (by simp) h
  | order _ r _ e => exact State.factors_of_eq (by simp) (by simp) (by simp) h
  | stop => exact State.factors_of_eq (by simp) (by simp) (by simp) h
  | trip _ q =>
    obtain ⟨-, -, -, -, -, h1, h2, -, h3, -⟩ := s.enterTripped_fields q
    constructor
    · rw [h1]; exact h.level
    · rw [h1]; exact h.ramp
    · rw [h3]; exact h.stepped
    · rw [h1]; exact fun r e => nomatch e
    · rw [h1]; exact fun r e => nomatch e
    · rw [h2]; exact h.orders
  | count _ i =>
    obtain ⟨-, -, -, -, -, h1, h2, -, h3, -⟩ := s.enterCountdown_fields i
    exact State.factors_of_eq h1 (by rw [h3]) (by rw [h2]) h
  | descend => exact { h with ramp := h.rampBase_le, runRamp := fun r e => nomatch e }
  | stepRun =>
    obtain ⟨h1, h2⟩ := Drive.stepRun_sound (k := s.items.stopStep) h.ramp h.runRamp
    have hf := Drive.stepRun_frame s.items.stopStep s.drive
    have hl : s.runStepped.drive.level = s.drive.level ∧ s.runStepped.drive.levelRamp = s.drive.levelRamp := by
      unfold State.runStepped; rw [hf]; exact ⟨rfl, rfl⟩
    exact ⟨hl.1 ▸ h.level, h1, Scratch.atZero_le h.stepped, hl.2 ▸ h.levelRamp, h2, h.orders⟩
  | stepLevel =>
    obtain ⟨h1, h2⟩ := Drive.stepLevel_sound h.level h.levelRamp
    have hl : s.levelStepped.drive.ramp = s.drive.ramp ∧ s.levelStepped.drive.runRamp = s.drive.runRamp := by
      unfold State.levelStepped; rw [Drive.stepLevel_frame]; exact ⟨rfl, rfl⟩
    refine ⟨h1, hl.1 ▸ h.ramp, fun x hx => ?_, h2, hl.2 ▸ h.runRamp, h.orders⟩
    cases hx
    exact ⟨h.level, h.ramp⟩
  | file _ u _ hu => exact { h with orders := fun o ho => (hu o ho).elim (h.orders o) (hA o) }
  | level _ ho =>
    refine { h with level := (hA _ ho).2.2, levelRamp := (fun r e => nomatch e), stepped := fun x hx => ?_ }
    obtain ⟨z, hz, rfl⟩ := Option.map_eq_some_iff.mp hx
    exact ⟨(hA _ ho).2.2, (h.stepped z hz).2⟩
  | ramp _ z x ho hx =>
    have hv : (if z then 0 else s.rampBase) ≤ 32768 := by
      split
      · exact Nat.zero_le _
      · exact h.rampBase_le
    have hn := Ramp.sound_new hv hx ⟨(hA _ ho).1, (hA _ ho).2.1⟩
    refine { h with ramp := hv, runRamp := (fun r e => by cases e; exact hn), stepped := fun y hy => ?_ }
    obtain ⟨w, hw, rfl⟩ := Option.map_eq_some_iff.mp hy
    exact ⟨(h.stepped w hw).1, hv⟩
  | @rampLevel o _ ho =>
    have hn := Ramp.sound_new h.levelBase_le (hA _ ho).2.2 ⟨(hA _ ho).1, (hA _ ho).2.1⟩
    have hd : (s.rampLevel o.b o.a).drive.level ≤ 32768 ∧ ∀ r, (s.rampLevel o.b o.a).drive.levelRamp = some r → r.sound := by
      unfold State.rampLevel
      dsimp only
      split
      · exact Drive.stepLevel_sound h.levelBase_le fun r e => by cases e; exact hn
      · exact ⟨h.levelBase_le, fun r e => by cases e; exact hn⟩
    have hf : (s.rampLevel o.b o.a).drive.ramp = s.drive.ramp ∧ (s.rampLevel o.b o.a).drive.runRamp = s.drive.runRamp := by
      rw [State.rampLevel_frame]; exact ⟨rfl, rfl⟩
    exact ⟨hd.1, hf.1 ▸ h.ramp, h.stepped, hd.2, hf.2 ▸ h.runRamp, h.orders⟩
  | applied => exact State.factors_of_eq (by simp) (by simp) (by simp) h
  | inapplicable => exact State.factors_of_eq (by simp) (by simp) (by simp) h
  | bring | offer | episode | abort | start => exact ⟨h.level, h.ramp, h.stepped, h.levelRamp, h.runRamp, h.orders⟩

theorem Moves.keeps_factors (hA : ∀ o, A o → o.normalised) (m : Moves A s t) (h : s.factors) : t.factors :=
  m.keeps (fun m => m.keeps_factors hA) h

end Sys2Proof.Machine

namespace Sys2Proof.Machine

variable {s t u : State}

/-! ### The laws of run and drive across a part of a step -/

/-- The factor law within a step: the factors, the items, and the coefficients and held sample in 16 bits. -/
structure State.wide (s : State) : Prop where
  items : s.items.inRanges
  factors : s.factors
  held : inSigned16 s.drive.held
  banks : ∀ j : Station, inSigned16 (s.drive.active.get j) ∧ inSigned16 (s.drive.pendingBank.get j)

/-- Each law of run and drive that holds in s holds in t. -/
structure Kept (s t : State) : Prop where
  trip : s.tripLaw → t.tripLaw
  countdown : s.countdownLaw → t.countdownLaw
  rest : s.restLaw → t.restLaw
  output : s.outputLaw → t.outputLaw
  wide : s.wide → t.wide

theorem Kept.refl (s : State) : Kept s s := ⟨id, id, id, id, id⟩

theorem Kept.trans (h : Kept s t) (g : Kept t u) : Kept s u :=
  ⟨g.trip ∘ h.trip, g.countdown ∘ h.countdown, g.rest ∘ h.rest, g.output ∘ h.output, g.wide ∘ h.wide⟩

theorem State.outputLaw_offline (h : s.run.state = .offline) : s.outputLaw ↔
    s.items.inRanges ∧ s.drive.code = 0 ∧ s.drive.prev = 0 ∧ s.drive.residual = 0 := by
  rw [State.outputLaw, if_pos h]

theorem State.outputLaw_online (h : s.run.state ≠ .offline) : s.outputLaw ↔
    s.items.inRanges ∧ 1 ≤ s.ownNumber ∧ s.items.cmdMin < s.items.cmdMax ∧
    (s.items.cmdMin * 256 ≤ s.drive.prev ∧ s.drive.prev ≤ s.items.cmdMax * 256) ∧
    (-128 ≤ s.drive.residual ∧ s.drive.residual ≤ 127) ∧
    (s.items.cmdMin ≤ s.drive.code ∧ s.drive.code ≤ s.items.cmdMax) := by
  rw [State.outputLaw, if_neg h]

/-- The output law of states with the same items and output, both OFFLINE or neither. -/
theorem State.outputLaw_of_eq (hi : t.port.items = s.port.items) (hr : t.run.state = .offline ↔ s.run.state = .offline)
    (ho : t.drive.output = s.drive.output) (h : s.outputLaw) : t.outputLaw := by
  have h1 : t.drive.prev = s.drive.prev := congrArg (·.1) ho
  have h2 : t.drive.residual = s.drive.residual := congrArg (·.2.1) ho
  have h3 : t.drive.code = s.drive.code := congrArg (·.2.2.1) ho
  simp only [State.outputLaw, State.items, State.ownNumber, hi, hr, h1, h2, h3] at h ⊢
  exact h

/-- The parts that the laws speak of stand. -/
theorem Kept.of_frame (hr : t.run = s.run) (hd : t.drive = s.drive) (ho : t.orders = s.orders)
    (hi : t.port.items = s.port.items) (hx : t.scratch.stepped = s.scratch.stepped) : Kept s t where
  trip := State.tripLaw_of_eq (by rw [hr]) (by rw [hr])
  countdown := State.countdownLaw_of_eq (by rw [hr]) (by rw [hr])
  rest := State.restLaw_of_eq (by rw [hr]) hd
  output := State.outputLaw_of_eq hi (by rw [hr]) (by rw [hd])
  wide := fun h => ⟨by rw [State.items, hi]; exact h.items, State.factors_of_eq hd hx (by rw [ho]) h.factors,
    by rw [hd]; exact h.held, by rw [hd]; exact h.banks⟩

/-- An operation that keeps the laws, begun where the parts that they speak of stand as in s. -/
theorem Kept.after (h : Kept u t) (hr : u.run = s.run) (hd : u.drive = s.drive) (ho : u.orders = s.orders)
    (hi : u.port.items = s.port.items) (hx : u.scratch.stepped = s.scratch.stepped) : Kept s t :=
  (Kept.of_frame hr hd ho hi hx).trans h

/-- A row of moves that leaves items and output keeps every law, when the orders at hand are normalised. -/
theorem Kept.of_moves {A : Order → Prop} (hA : s.wide → ∀ o, A o → o.normalised) (m : Moves A s t)
    (hi : t.port.items = s.port.items) (ho : t.drive.output = s.drive.output) : Kept s t where
  trip := m.keeps (P := State.tripLaw) Move.keeps_tripLaw
  countdown := m.keeps (P := State.countdownLaw) Move.keeps_countdownLaw
  rest := m.keeps (P := State.restLaw) Move.keeps_restLaw
  output := State.outputLaw_of_eq hi m.offline_iff ho
  wide := fun h => by
    have h1 : t.drive.held = s.drive.held := congrArg (·.2.2.2.1) ho
    have h2 : t.drive.active = s.drive.active := congrArg (·.2.2.2.2.1) ho
    have h3 : t.drive.pendingBank = s.drive.pendingBank := congrArg (·.2.2.2.2.2.1) ho
    exact ⟨by rw [State.items, hi]; exact h.items, m.keeps_factors (hA h) h.factors, by rw [h1]; exact h.held,
      by rw [h2, h3]; exact h.banks⟩

/-- Moves of an operation that leaves the steady parts. -/
theorem Kept.of_steady {A : Order → Prop} (hA : s.wide → ∀ o, A o → o.normalised) (m : Moves A s t)
    (h : t.steady = s.steady) : Kept s t := .of_moves hA m (State.items_of_steady h) (State.output_of_steady h)

/-- Moves of an operation that leaves the steady parts and has no order at hand. -/
theorem Kept.of_quiet (m : Moves noOrder s t) (h : t.quiet = s.quiet) : Kept s t :=
  .of_steady (fun _ _ h => h.elim) m (State.steady_of_quiet h)

/-- An operation that leaves the gear and the items keeps every law. -/
theorem Kept.of_gear (hg : t.gear = s.gear) (hi : t.port.items = s.port.items) : Kept s t :=
  .of_moves (A := noOrder) (fun _ _ h => h.elim) (.still hg) hi (by rw [(State.gear_eq_iff.mp hg).2.2.2.2.2.1])

/-! ### A cycle boundary -/

theorem State.act_kept (s : State) (a : BoundaryAction) : Kept s (s.act a) :=
  .of_steady (fun h o ho => h.factors.orders o ho) (s.act_moves a) (State.steady_of_quiet (s.act_quiet a))

theorem State.acts_kept (l : List BoundaryAction) (s : State) : Kept s (l.foldl State.act s) := by
  induction l generalizing s with
  | nil => exact .refl s
  | cons a l ih => exact (s.act_kept a).trans (ih _)

theorem State.latchFeedback_items (s : State) : s.latchFeedback.port.items = s.port.items := by
  unfold State.latchFeedback; split <;> rfl

theorem State.countPulse_items (s : State) : s.countPulse.port.items = s.port.items := by
  unfold State.countPulse
  split
  · rfl
  · split <;> rfl

/-- The items stand when the acts of a boundary begin. -/
theorem State.opened_items (s : State) : s.opened.port.items = s.port.items :=
  (State.countPulse_items _).trans ((State.latchFeedback_items _).trans rfl)

theorem State.opened_output (s : State) : s.opened.drive.output = s.drive.output :=
  (State.output_of_steady (State.steady_of_quiet (State.countPulse_quiet _))).trans
    (congrArg Drive.output (State.gear_eq_iff.mp (State.latchFeedback_gear _)).2.2.2.2.2.1)

theorem State.boundary_kept (first : List BoundaryAction) (s : State) : Kept s (s.boundary first) :=
  (Kept.of_moves (A := noOrder) (fun _ _ h => h.elim) s.opened_moves s.opened_items s.opened_output).trans
    (State.acts_kept _ s.opened)

/-! ### An output instant -/

/-- One computation keeps P, the residual and the code in their ranges, and moves P by SlewMax at the most (R16 to R19). -/
theorem Drive.compute_ranges {c : Items} {d : Drive} (x : Int) (hs : 1 ≤ c.slewMax) (hc : c.cmdMin < c.cmdMax)
    (hp : c.cmdMin * 256 ≤ d.prev ∧ d.prev ≤ c.cmdMax * 256) (hr : -128 ≤ d.residual ∧ d.residual ≤ 127) :
    (c.cmdMin * 256 ≤ (d.compute c x).prev ∧ (d.compute c x).prev ≤ c.cmdMax * 256) ∧
    (d.prev - c.slewMax ≤ (d.compute c x).prev ∧ (d.compute c x).prev ≤ d.prev + c.slewMax) ∧
    (-128 ≤ (d.compute c x).residual ∧ (d.compute c x).residual ≤ 127) ∧
    (c.cmdMin ≤ (d.compute c x).code ∧ (d.compute c x).code ≤ c.cmdMax) := by
  have h1 := clamp_mem x (show c.cmdMin * 256 ≤ c.cmdMax * 256 by omega)
  have h2 := clamp_move_mem (show 0 ≤ c.slewMax by omega) h1 hp
  have h3 := clamp_mem (clamp x (c.cmdMin * 256) (c.cmdMax * 256)) (show d.prev - c.slewMax ≤ d.prev + c.slewMax by omega)
  simp only [Drive.compute, Drive.present, slewClamp, commandClamp, carriedValue]
  refine ⟨h2, h3, ?_, ?_⟩
  · split
    · exact codeOf_remainder _
    · decide
  · split
    · exact codeOf_mem hr (by omega)
    · exact codeOf_mem (r := 0) (by decide) (by omega)

/-- The computation leaves the factors, the banks and the held sample. -/
theorem Drive.compute_frame (c : Items) (x : Int) (d : Drive) :
    d.compute c x = { d with prev := (d.compute c x).prev, residual := (d.compute c x).residual
                             code := (d.compute c x).code, clipFlag := (d.compute c x).clipFlag
                             slewFlag := (d.compute c x).slewFlag, strobes := d.strobes + 1 } := rfl

/-- The computation with its counters changes drive unit and counters alone (R16, R17). -/
theorem State.computeDrive_frame (x : Int) (s : State) : ∃ v, s.computeDrive x =
    { s with drive := s.drive.compute s.items x, port := { s.port with counters := v } } := by
  simp only [State.computeDrive]
  split <;> split <;> exact ⟨_, rfl⟩

/-- The hold runs stand in the peer table alone. -/
theorem State.updateHoldRuns_frame (n : Nat) (s : State) : ∃ v, s.updateHoldRuns n = { s with peers := v } := by
  unfold State.updateHoldRuns
  refine List.foldlRecOn (motive := fun u : State => ∃ v, u = { s with peers := v }) stations _ ⟨s.peers, rfl⟩ ?_
  rintro u ⟨v, rfl⟩ j -
  split
  · exact ⟨_, rfl⟩
  · exact ⟨v, rfl⟩

/-- What the drive unit does at an instant: the peer table takes the hold runs, and in the states that compute the drive unit
computes one sum (R5). -/
theorem State.driveInstant_frame (r : RunState) (k : Option Taken) (n : Word) (s : State) : ∃ v c x, s.driveInstant r k n =
    { s with drive := if r.computes then s.drive.compute s.items x else s.drive
             peers := v
             port := { s.port with counters := c } } := by
  have hu : ∃ v, (if r.coupling then s.updateHoldRuns (targetIndex r n s.items.lag s.drive.runStart) else s) =
      { s with peers := v } := by
    split
    · exact s.updateHoldRuns_frame _
    · exact ⟨s.peers, rfl⟩
  obtain ⟨v, hv⟩ := hu
  simp only [State.driveInstant, hv]
  split
  · obtain ⟨c, hc⟩ := State.computeDrive_frame (Drive.base s.drive k +
      (if r.coupling then s.couplingSum (targetIndex r n s.items.lag s.drive.runStart) else 0) + s.items.bias)
      { s with peers := v }
    exact ⟨v, c, _, hc⟩
  · exact ⟨v, s.port.counters, 0, rfl⟩

theorem State.driveInstant_kept {r : RunState} (hr : s.run.state = r) (k : Option Taken) (n : Word) :
    Kept s (s.driveInstant r k n) := by
  obtain ⟨v, c, x, e⟩ := s.driveInstant_frame r k n
  rw [e]
  by_cases hc : r.computes = true
  · rw [if_pos hc]
    have hne : s.run.state ≠ .offline := by rw [hr]; rintro rfl; cases hc
    refine ⟨id, id, id, fun h => ?_, fun h => ⟨h.items, ?_, h.held, h.banks⟩⟩
    · obtain ⟨hi, h1, h2, h3, h4, -⟩ := (State.outputLaw_online hne).mp h
      obtain ⟨g1, -, g2, g3⟩ := Drive.compute_ranges x (by unfold Items.inRanges at hi; omega) h2 h3 h4
      refine (State.outputLaw_online ?_).mpr ⟨hi, h1, h2, g1, g2, g3⟩
      exact hne
    · obtain ⟨h1, h2, h3, h4, h5, h6⟩ := h.factors
      exact ⟨h1, h2, h3, h4, h5, h6⟩
  · rw [if_neg hc]
    exact .of_frame rfl rfl rfl rfl rfl

/-- A sample consumed is held (R6); nothing else of the drive unit changes with a consumption. -/
theorem State.consume_frame (s : State) : ∃ c n, s.consume.1 =
    { s with sched := c, drive := s.drive.hold s.consume.2, port := { s.port with counters := n } } := by
  unfold State.consume
  split
  · dsimp only
    split
    · split <;> exact ⟨_, _, rfl⟩
    · exact ⟨_, _, rfl⟩
  · exact ⟨s.sched, s.port.counters, rfl⟩

theorem Drive.hold_frame (d : Drive) (k : Option Taken) : d.hold k = { d with held := (d.hold k).held } := by
  unfold Drive.hold; split <;> rfl

theorem Drive.hold_held {d : Drive} (h : inSigned16 d.held) (k : Option Taken) : inSigned16 (d.hold k).held := by
  unfold Drive.hold
  split
  · rename_i x _
    exact ⟨by have := x.le_toInt; simpa using this, by have := x.toInt_lt; simp at this ⊢; omega⟩
  · exact h

theorem State.consume_kept (s : State) : Kept s s.consume.1 := by
  obtain ⟨c, n, e⟩ := s.consume_frame
  rw [e, Drive.hold_frame]
  refine ⟨id, id, id, id, fun h => ⟨h.items, ?_, Drive.hold_held h.held _, h.banks⟩⟩
  obtain ⟨h1, h2, h3, h4, h5, h6⟩ := h.factors
  exact ⟨h1, h2, h3, h4, h5, h6⟩

/-- The apply request of an instant served, or left (R27). -/
def State.serve (q : Option ApplyRequest) (s : State) : State :=
  if q.isSome then { s with drive := s.drive.applyBank } else s

@[simp] theorem State.serve_none (s : State) : s.serve none = s := rfl
@[simp] theorem State.serve_some (q : ApplyRequest) (s : State) :
    s.serve (some q) = { s with drive := s.drive.applyBank } := rfl
@[simp] theorem State.serve_run (q : Option ApplyRequest) (s : State) : (s.serve q).run = s.run := by cases q <;> rfl
@[simp] theorem State.serve_sched (q : Option ApplyRequest) (s : State) : (s.serve q).sched = s.sched := by cases q <;> rfl
@[simp] theorem State.serve_port (q : Option ApplyRequest) (s : State) : (s.serve q).port = s.port := by cases q <;> rfl

/-- The state in which an instant computes: consumption taken, apply request served (R6, R27). -/
def State.instantReady (s : State) : State :=
  s.consume.1.serve (servesRequest s.consume.1.drive.apply s.run.state s.consume.2)

/-- What an instant finds is computed in the state that consumption and banks left. -/
theorem State.instantFacts_fst (s : State) : s.instantFacts.1 =
    s.instantReady.driveInstant s.run.state s.consume.2 (instantIndex s.consume.2 s.instantReady.sched.replay) := rfl

/-- Banks of 16-bit coefficients in place of the present ones (R26). -/
theorem State.banks_kept {a p : Vector Int 16} {q : ApplyRequest}
    (h : s.wide → ∀ j : Station, inSigned16 (a.get j) ∧ inSigned16 (p.get j)) :
    Kept s { s with drive := { s.drive with active := a, pendingBank := p, apply := q } } := by
  refine ⟨id, id, id, id, fun g => ⟨g.items, ?_, g.held, h g⟩⟩
  obtain ⟨h1, h2, h3, h4, h5, h6⟩ := g.factors
  exact ⟨h1, h2, h3, h4, h5, h6⟩

theorem State.serve_kept (q : Option ApplyRequest) (s : State) : Kept s (s.serve q) := by
  cases q with
  | none => exact .refl s
  | some q => exact State.banks_kept (fun h j => ⟨(h.banks j).2, (h.banks j).2⟩)

@[simp] theorem State.consume_run (s : State) : s.consume.1.run = s.run := by
  obtain ⟨c, n, e⟩ := s.consume_frame
  rw [e]

@[simp] theorem State.instantReady_run (s : State) : s.instantReady.run = s.run := by simp [State.instantReady]

theorem State.instantFacts_kept (s : State) : Kept s s.instantFacts.1 := by
  rw [State.instantFacts_fst]
  have h : Kept s s.instantReady := s.consume_kept.trans (State.serve_kept _ _)
  exact h.trans (State.driveInstant_kept (congrArg Run.state s.instantReady_run) _ _)

/-- The pause order of a marker is normalised while the items are in range. -/
theorem State.pauseOrder_normalised {s : State} (h : s.items.inRanges) :
    (s.newOrder .pause s.items.pauseLength 0).normalised := by
  have ha := normalA_range (a := s.items.pauseLength) (by unfold Items.inRanges at h; omega)
  exact ⟨ha.1, ha.2, normalB_le .pause 0⟩

theorem State.report_kept (f : InstantFacts) (s : State) (r : InstantReport) : Kept s (s.report f r) :=
  .of_steady (A := fun o => ∃ t : State, t.items = s.items ∧ o = t.newOrder .pause t.items.pauseLength 0)
    (fun h _ ⟨_, ht, ho⟩ => ho ▸ State.pauseOrder_normalised (ht ▸ h.items))
    (s.report_moves f r fun t ht => ⟨t, ht, rfl⟩) (State.steady_of_quiet (s.report_quiet f r))

theorem State.reports_kept (f : InstantFacts) (l : List InstantReport) (s : State) : Kept s (l.foldl (State.report f) s) := by
  induction l generalizing s with
  | nil => exact .refl s
  | cons r l ih => exact (s.report_kept f r).trans (ih _)

theorem State.fetch_kept (s : State) : Kept s s.fetch :=
  .of_gear s.fetch_gear (State.items_of_steady (State.steady_of_quiet s.fetch_quiet))

theorem State.actInstant_kept (first : List InstantReport) (s : State) : Kept s (s.actInstant first) := by
  have h := s.instantFacts_kept.trans (State.reports_kept s.instantFacts.2 (orderedBy first instantReports) _)
  simp only [State.actInstant]
  split
  · exact h.trans (State.fetch_kept _)
  · exact h

theorem State.elapse_kept (n : Nat) (s : State) : Kept s (s.elapse n) := .of_frame rfl rfl rfl rfl rfl

theorem State.takeInstant_kept (first : List InstantReport) (s : State) : Kept s (s.takeInstant first) := by
  have h : Kept s { s with time := { s.time with mark := true } } := .of_frame rfl rfl rfl rfl rfl
  exact h.trans (State.actInstant_kept _ _)

theorem State.instant_kept (first : List InstantReport) (s : State) : Kept s (s.instant first) := by
  unfold State.instant
  split
  · exact .refl s
  · exact (s.elapse_kept _).trans (State.takeInstant_kept first _)

theorem State.settle_kept (s : State) : Kept s s.settle where
  trip := id
  countdown := id
  rest := id
  output := id
  wide := fun h => ⟨h.items, ⟨h.factors.level, h.factors.ramp, (fun _ e => nomatch e), h.factors.levelRamp, h.factors.runRamp,
    h.factors.orders⟩, h.held, h.banks⟩

theorem State.endCycle_kept (first : List BoundaryAction) (s : State) : Kept s (s.endCycle first) :=
  ((s.instant_kept []).trans (State.settle_kept _)).trans (State.boundary_kept _ _)

end Sys2Proof.Machine

namespace Sys2Proof.Machine

variable {s t : State}

/-! ### Ring, servo and acceptance -/

/-- Moves with no order at hand of an operation that leaves the steady parts. -/
theorem Kept.of_plain (m : Moves noOrder s t) (h : t.steady = s.steady) : Kept s t := .of_steady (fun _ _ h => h.elim) m h

theorem State.readyTest_kept (s : State) : Kept s s.readyTest := .of_quiet s.readyTest_moves s.readyTest_quiet

theorem State.requestLocal_kept (c : Cause) (n : Nat) (s : State) : Kept s (s.requestLocal c n) :=
  .of_quiet (s.requestLocal_moves c n) (State.requestLocal_quiet c n s)

theorem State.takeWaiting_kept (n : Nat) (s : State) : Kept s (s.takeWaiting n) :=
  .of_steady (fun _ _ h => h) (s.takeWaiting_moves n) (State.takeWaiting_steady n s)

theorem State.setReady_kept (level : Bool) (s : State) : Kept s (s.setReady level) := by
  have h : Kept s (s.readyShown level) := .of_gear (s.readyShown_gear level) (s.readyShown_items level)
  by_cases e : s.servo.ready = level
  · rw [s.setReady_of_eq e]; exact .refl s
  · rw [s.setReady_of_ne e]
    split
    · exact h.trans (State.requestLocal_kept _ _ _)
    · exact h.trans (State.readyTest_kept _)

theorem State.failCheck_kept (d : Side) (s : State) : Kept s (s.failCheck d) := by
  unfold State.failCheck
  split
  · exact .after (.of_quiet (State.badFrame_moves _ d) (State.badFrame_quiet d _)) rfl rfl rfl rfl rfl
  · exact .refl s

theorem State.loseSignal_kept (d : Side) (s : State) : Kept s (s.loseSignal d) := by
  have h : Kept s ((s.onSide d (fun x => { x with signal := false })).endReception d.receives) := .of_frame rfl rfl rfl rfl rfl
  simp only [State.loseSignal]
  split
  · split
    · exact h
    · exact h.trans (.of_quiet (State.sideDown_moves _ d 3) (State.sideDown_quiet d 3 _))
  · exact .refl s

theorem State.takeArrival_kept (l : Lane) (c : Bool) (b : List Byte) (s : State) : Kept s (s.takeArrival l c b) :=
  .of_plain (s.takeArrival_moves l c b) (State.takeArrival_steady l c b s)

theorem State.tryTraining_kept (d : Side) (s : State) : Kept s (s.tryTraining d) :=
  .of_gear (s.tryTraining_gear d) (State.items_of_steady (State.steady_of_quiet (State.tryTraining_quiet d s)))

theorem State.gainSignal_kept (d : Side) (s : State) : Kept s (s.gainSignal d) := by
  unfold State.gainSignal
  split
  · exact .refl s
  · exact .after (State.tryTraining_kept d _) rfl rfl rfl rfl rfl

theorem State.expireHold_kept (d : Side) (s : State) : Kept s (s.expireHold d) := by
  unfold State.expireHold
  split
  · exact .after (State.tryTraining_kept d _) rfl rfl rfl rfl rfl
  · exact .refl s

theorem State.takeLaneWord_kept (d : Side) (p f c : Byte) (s : State) : Kept s (s.takeLaneWord d p f c) :=
  .of_gear (s.takeLaneWord_gear d p f c) (State.items_of_steady (State.steady_of_quiet (State.takeLaneWord_quiet d p f c s)))

theorem State.cleanWord_kept (d : Side) (s : State) : Kept s (s.cleanWord d) :=
  .of_gear (s.cleanWord_gear d) (State.items_of_steady (State.steady_of_quiet (State.cleanWord_quiet d s)))

theorem State.startTransmission_kept (l : Lane) (s : State) : Kept s (s.startTransmission l) :=
  .of_gear (s.startTransmission_gear l) (State.items_of_steady (State.steady_of_quiet (State.startTransmission_quiet l s)))

theorem State.receiveWord_kept (bits : List Bool) (s : State) : Kept s (s.receiveWord bits) := by
  simp only [State.receiveWord]
  split <;> exact .of_frame rfl rfl rfl rfl rfl

/-- The event that falls together with a STOP (R88, R89). -/
theorem State.happens_kept (e : Together) (s : State) : Kept s (s.happens e) := by
  cases e with
  | boundary first => exact s.endCycle_kept first
  | instant first => exact s.instant_kept first
  | copy n => exact s.takeWaiting_kept n
  | servoReady level => exact s.setReady_kept level
  | signalLost d => exact s.loseSignal_kept d
  | frameCheckDown d => exact s.failCheck_kept d

/-! ### The drive store -/

theorem State.grant_kept (s : State) : Kept s s.grant := .of_frame rfl rfl rfl rfl rfl

theorem State.afterBurst_kept (s : State) : Kept s s.afterBurst :=
  (s.fetch_kept.trans (State.grant_kept _)).trans (State.readyTest_kept _)

theorem State.sampleCompletion_kept (s : State) : Kept s s.sampleCompletion := by
  unfold State.sampleCompletion
  split
  · unfold State.completeSamples
    dsimp only
    split
    · exact .after (State.afterBurst_kept _) rfl rfl rfl rfl rfl
    · exact .after (State.afterBurst_kept _) rfl rfl rfl rfl rfl
  · exact .refl s

theorem State.shapeCompletion_kept (s : State) : Kept s s.shapeCompletion := by
  unfold State.shapeCompletion
  split
  · simp only [State.completeShape]
    split
    · exact .after (State.afterBurst_kept _) rfl rfl rfl rfl rfl
    · exact .after (State.afterBurst_kept _) rfl rfl rfl rfl rfl
  · exact .refl s

theorem State.writeCompletion_kept (s : State) : Kept s s.writeCompletion := by
  unfold State.writeCompletion
  split
  · exact .of_frame rfl rfl rfl rfl rfl
  · exact .refl s

theorem State.readCompletion_kept (s : State) : Kept s s.readCompletion := by
  unfold State.readCompletion
  split
  · exact .of_frame rfl rfl rfl rfl rfl
  · exact .refl s

/-! ### The supervisor port -/

theorem State.finish_kept (x : Status) (w : List Word) (s : State) : Kept s (s.finish x w) := .of_frame rfl rfl rfl rfl rfl

theorem State.takeCommand_kept (code : Nat) (tag : Byte) (args : List Word) {owner : State → State}
    (h : ∀ u, Kept u (owner u)) (s : State) : Kept s (s.takeCommand code tag args owner) := by
  unfold State.takeCommand
  dsimp only
  split
  · exact .of_frame rfl rfl rfl rfl rfl
  · exact .after (h _) rfl rfl rfl rfl rfl

theorem withCount_kept (n : Nat) (args : List Word) {owner : State → State} (h : args.length = n → ∀ u, Kept u (owner u))
    (s : State) : Kept s (withCount n args owner s) := by
  unfold withCount
  split
  · exact h ‹_› s
  · exact s.finish_kept _ _

theorem inStates_kept (l : List RunState) {owner : State → State} (h : ∀ u, u.run.state ∈ l → Kept u (owner u)) (s : State) :
    Kept s (inStates l owner s) := by
  unfold inStates
  split
  · exact h s ‹_›
  · exact s.finish_kept _ _

/-- No test that passed is an offence. -/
theorem firstOffence_none {l : List Bool} (h : firstOffence l = none) : ∀ b ∈ l, b = true := by
  induction l with
  | nil => exact fun _ h => absurd h List.not_mem_nil
  | cons a l ih =>
    cases a with
    | false => cases h
    | true =>
      intro b hb
      rcases List.mem_cons.mp hb with rfl | hb
      · rfl
      · exact ih (Option.map_eq_none_iff.mp h) b hb

theorem withRanges_kept (tests : List Bool) {owner : State → State} (h : (∀ b ∈ tests, b = true) → ∀ u, Kept u (owner u))
    (s : State) : Kept s (withRanges tests owner s) := by
  unfold withRanges
  split
  · exact s.finish_kept _ _
  · exact h (firstOffence_none ‹_›) s

theorem State.append_kept (e : Entry) (s : State) : Kept s (s.append e) := by
  unfold State.append
  exact .after (State.fetch_kept _) rfl rfl rfl rfl rfl

theorem State.appendSegment_kept (args : List Word) (s : State) : Kept s (s.appendSegment args) := by
  unfold State.appendSegment
  split
  · exact s.finish_kept _ _
  · split
    · exact s.finish_kept _ _
    · split
      · exact s.finish_kept _ _
      · exact ((s.append_kept _).trans (State.readyTest_kept _)).trans (State.finish_kept _ _ _)

theorem State.flush_kept (s : State) : Kept s s.flush :=
  .of_gear s.flush_gear (State.items_of_steady (State.steady_of_quiet s.flush_quiet))

/-- A flush after a change of the schedule. -/
theorem State.flushed_kept (c : Sched) (s : State) : Kept s (State.flush { s with sched := c }) :=
  .after (State.flush_kept _) rfl rfl rfl rfl rfl

theorem State.discardSchedule_kept (s : State) : Kept s s.discardSchedule :=
  ((s.flushed_kept _).trans (State.readyTest_kept _)).trans (State.finish_kept _ _ _)

theorem State.seekRepeat_kept (args : List Word) (s : State) : Kept s (s.seekRepeat args) := by
  unfold State.seekRepeat
  split
  · split
    · exact ((s.flushed_kept _).trans (State.readyTest_kept _)).trans (State.finish_kept _ _ _)
    · exact s.finish_kept _ _
  · exact s.finish_kept _ _

theorem State.requestChunk_kept (c : Chunk) (s : State) : Kept s (s.requestChunk c) := .of_frame rfl rfl rfl rfl rfl

theorem State.writePage_kept (args : List Word) (s : State) : Kept s (s.writePage args) := by
  unfold State.writePage
  split
  · exact s.finish_kept _ _
  · exact withRanges_kept _ (fun _ => State.requestChunk_kept _) s

theorem State.readPage_kept (args : List Word) (s : State) : Kept s (s.readPage args) :=
  withRanges_kept _ (fun _ => State.requestChunk_kept _) s

/-- A coefficient put into a bank of 16-bit coefficients leaves one (R26). -/
theorem put_signed16 {v : Vector Int 16} {j : Station} {x : Int} (hx : inSigned16 x) (k : Station)
    (h : inSigned16 (v.get k)) : inSigned16 ((put v j x).get k) := by
  by_cases e : k = j
  · rw [e, put_get_same]; exact hx
  · rw [put_get_other _ _ _ _ e]; exact h

theorem State.writeCoupling_kept (args : List Word) (s : State) : Kept s (s.writeCoupling args) := by
  unfold State.writeCoupling
  split
  · exact s.finish_kept _ _
  · split
    · exact s.finish_kept _ _
    · split
      · rename_i j _ _ h
        have hb : Kept s { s with drive := { s.drive with pendingBank := put s.drive.pendingBank j (argAt args 1).toInt } } :=
          State.banks_kept fun g k => ⟨(g.banks k).1, put_signed16 (by simpa [inSignedRange, inSigned16] using h) k (g.banks k).2⟩
        exact hb.trans (State.finish_kept _ _ _)
      · exact s.finish_kept _ _

theorem State.applyCoupling_kept (args : List Word) (s : State) : Kept s (s.applyCoupling args) := by
  have h : ∀ q : ApplyRequest, Kept s { s with drive := { s.drive with apply := q } } := fun q => State.banks_kept fun g => g.banks
  unfold State.applyCoupling
  split
  · exact (h .now).trans (State.finish_kept _ _ _)
  · exact (h .atRepeat).trans (State.finish_kept _ _ _)
  · exact s.finish_kept _ _

theorem State.originate_kept (k : OrderKind) (a b : Nat) (ha : a ≤ 65535) (s : State) (hk : k = .start → s.run.state = .ready) :
    Kept s (s.originate k a b) := by
  have hn : (s.newOrder k a b).normalised := ⟨(normalA_range ha).1, (normalA_range ha).2, normalB_le k b⟩
  exact .of_steady (fun _ _ h => h) (s.originate_moves (A := Order.normalised) k a b hn hk)
    (State.steady_of_quiet (State.originate_quiet k a b s))

theorem State.commandOrder_kept (k : OrderKind) (a b : Nat) (ha : a ≤ 65535) (s : State)
    (hk : k = .start → s.run.state = .ready) : Kept s (s.commandOrder k a b) := by
  unfold State.commandOrder
  split
  · exact (s.originate_kept k a b ha hk |> fun h => h.trans (State.finish_kept _ _ _))
  · exact s.finish_kept _ _

/-- The first argument of an order lies in its range when the tests have passed; with no argument it reads 0 (R202). -/
theorem argAt_zero_le {args : List Word} (h : ∀ b ∈ orderTests args, b = true) : (argAt args 0).toNat ≤ 65535 := by
  cases args with
  | nil => decide
  | cons w ws =>
    have := h (inRange w 0 65535) List.mem_cons_self
    simpa [inRange, argAt] using this

theorem orderOwner_kept (n : Nat) (args : List Word) (l : List RunState) (k : OrderKind) (b : Nat)
    (hk : k = .start → l = [.ready]) (s : State) : Kept s (orderOwner n args l k b s) := by
  refine withCount_kept n args (fun _ u => inStates_kept l (fun v hv => ?_) u) s
  have hr : k = .start → v.run.state = .ready := fun e => by rw [hk e] at hv; simpa using hv
  unfold withRanges
  split
  · exact v.finish_kept _ _
  · exact v.commandOrder_kept k _ b (argAt_zero_le (firstOffence_none ‹_›)) hr

theorem State.readEvent_kept (s : State) : Kept s s.readEvent := by
  unfold State.readEvent
  split
  · exact s.finish_kept _ _
  · exact .of_frame rfl rfl rfl rfl rfl

theorem State.stationTable_kept (n : Nat) (f : Station → List Word) (s : State) : Kept s (s.stationTable n f) := by
  unfold State.stationTable
  split <;> exact s.finish_kept _ _

theorem State.answerRecord_kept (x : Option (List Word)) (s : State) : Kept s (s.answerRecord x) := by
  unfold State.answerRecord
  split <;> exact s.finish_kept _ _

theorem State.readTable_kept (n k : Nat) (s : State) : Kept s (s.readTable n k) := by
  unfold State.readTable
  split
  · exact s.stationTable_kept _ _
  · exact s.stationTable_kept _ _
  · exact s.stationTable_kept _ _
  · split
    · exact s.answerRecord_kept _
    · exact s.finish_kept _ _
  · exact s.stationTable_kept _ _
  · split
    · exact s.answerRecord_kept _
    · exact s.finish_kept _ _
  · split <;> exact s.finish_kept _ _
  · exact s.finish_kept _ _

theorem State.clearCounters_kept (s : State) : Kept s s.clearCounters := .of_frame rfl rfl rfl rfl rfl

theorem State.resetNode_kept (s : State) : Kept s s.resetNode := .of_frame rfl rfl rfl rfl rfl

theorem State.readReply_kept (n : Nat) (s : State) : Kept s (s.readReply n) := .of_frame rfl rfl rfl rfl rfl

theorem State.malformedCommand_kept (x : Bool) (b : List Byte) (s : State) : Kept s (s.malformedCommand x b) := by
  unfold State.malformedCommand
  split
  · exact .of_frame rfl rfl rfl rfl rfl
  · exact .refl s

theorem State.stopCommand_kept (e : Option Together) (s : State) : Kept s (s.stopCommand e) := by
  cases e with
  | none => exact (s.requestLocal_kept _ _).trans (State.finish_kept _ _ _)
  | some e => exact ((s.happens_kept e).trans (State.requestLocal_kept _ _ _)).trans (State.finish_kept _ _ _)

end Sys2Proof.Machine

namespace Sys2Proof.Machine

variable {s t : State}

/-! ### Configuration and GO ONLINE -/

theorem unsignedItem_mem {lo hi : Nat} {w : Word} {v : Nat} (h : unsignedItem lo hi w = some v) : lo ≤ v ∧ v ≤ hi := by
  unfold unsignedItem at h
  split at h
  · rename_i hr
    cases h
    simpa [inRange] using hr
  · cases h

theorem signedItem_mem {lo hi : Int} {w : Word} {v : Int} (h : signedItem lo hi w = some v) : lo ≤ v ∧ v ≤ hi := by
  unfold signedItem at h
  split at h
  · rename_i hr
    cases h
    simpa [inSignedRange] using hr
  · cases h

/-- A value written by WRITE CONFIG leaves every item in its range (R200). -/
theorem Items.writeValue_inRanges {c d : Items} (hc : c.inRanges) {item : Nat} {w : Word}
    (h : c.writeValue item w = some d) : d.inRanges := by
  have hu : ∀ {lo hi : Nat} {f : Nat → Items}, (unsignedItem lo hi w).map f = some d → (∀ v, lo ≤ v → v ≤ hi → (f v).inRanges) →
      d.inRanges := by
    intro lo hi f hf hv
    obtain ⟨v, e, rfl⟩ := Option.map_eq_some_iff.mp hf
    exact hv v (unsignedItem_mem e).1 (unsignedItem_mem e).2
  have hs : ∀ {lo hi : Int} {f : Int → Items}, (signedItem lo hi w).map f = some d → (∀ v, lo ≤ v → v ≤ hi → (f v).inRanges) →
      d.inRanges := by
    intro lo hi f hf hv
    obtain ⟨v, e, rfl⟩ := Option.map_eq_some_iff.mp hf
    exact hv v (signedItem_mem e).1 (signedItem_mem e).2
  unfold Items.writeValue at h
  unfold Items.inRanges at hc hu hs ⊢
  split at h
  case h_4 =>
    split at h
    · cases h; exact hc
    · cases h
  case h_9 | h_10 | h_11 | h_12 | h_13 | h_14 => exact hs h (fun v h1 h2 => by dsimp only; omega)
  case h_25 => cases h
  all_goals exact hu h (fun v h1 h2 => by dsimp only; omega)

/-- A marker slot written leaves the ranges of the items. -/
theorem Items.writeSlot_inRanges {c d : Items} (hc : c.inRanges) {item : Nat} {m : MarkerSlot}
    (h : c.writeSlot item m = some d) : d.inRanges := by
  unfold Items.writeSlot at h
  split at h <;> cases h <;> exact hc

theorem Items.write_inRanges {c d : Items} (hc : c.inRanges) {item : Nat} {values : List Word}
    (h : c.write item values = some d) : d.inRanges := by
  unfold Items.write at h
  split at h
  · exact Items.writeValue_inRanges hc h
  · obtain ⟨m, -, hm⟩ := Option.bind_eq_some_iff.mp h
    exact Items.writeSlot_inRanges hc hm

theorem State.writeConfig_kept (args : List Word) (s : State) : Kept s (s.writeConfig args) := by
  unfold State.writeConfig
  split
  · exact s.finish_kept _ _
  split
  · exact s.finish_kept _ _
  rename_i hoff
  split
  · rename_i c hc
    have hs : s.run.state = .offline := not_not.mp hoff
    refine Kept.trans (t := s.withItems c) ⟨id, id, id, fun h => ?_, fun h => ?_⟩ (State.finish_kept .ok [] _)
    · obtain ⟨hi, h⟩ := (State.outputLaw_offline hs).mp h
      exact (State.outputLaw_offline (s := s.withItems c) hs).mpr ⟨Items.write_inRanges hi hc, h⟩
    · obtain ⟨h1, h2, h3, h4, h5, h6⟩ := h.factors
      exact ⟨Items.write_inRanges h.items hc, ⟨h1, h2, h3, h4, h5, h6⟩, h.held, h.banks⟩
  · exact s.finish_kept _ _

/-- A configuration without fault: the checks of GO ONLINE (R201). -/
theorem Items.fault?_none {c : Items} (h : c.fault? = none) :
    c.station ≠ 0 ∧ c.roster.getLsbD (c.station - 1) = false ∧ c.domain ≠ 0 ∧ c.cmdMin < c.cmdMax ∧ c.fbMin < c.fbMax := by
  unfold Items.fault? at h
  split at h
  · cases h
  split at h
  · cases h
  split at h
  · cases h
  split at h
  · cases h
  split at h
  · cases h
  exact ⟨‹_›, Bool.eq_false_iff.mpr ‹_›, ‹_›, Int.lt_of_not_ge ‹_›, Int.lt_of_not_ge ‹_›⟩

/-- The own coefficients cleared: each is what it was, or 0 (R26). -/
theorem State.clearOwnCoefficients_kept (s : State) : Kept s s.clearOwnCoefficients := by
  unfold State.clearOwnCoefficients
  split
  · exact .refl s
  · exact State.banks_kept fun h k => ⟨put_signed16 (by unfold inSigned16; omega) k (h.banks k).1,
      put_signed16 (by unfold inSigned16; omega) k (h.banks k).2⟩

theorem State.takeRoster_kept (s : State) : Kept s s.takeRoster := by
  unfold State.takeRoster
  refine List.foldlRecOn (motive := fun t : State => Kept s t) stations _ (.refl s) fun t ht j _ => ?_
  exact ht.trans (.of_frame rfl rfl rfl rfl rfl)

theorem State.takeRate_kept (s : State) : Kept s s.takeRate := .of_frame rfl rfl rfl rfl rfl

theorem State.requestBurst_kept (b : Burst) (s : State) : Kept s (s.requestBurst b) := .of_frame rfl rfl rfl rfl rfl

theorem State.setHold_kept (b : Bool) (s : State) : Kept s (s.setHold b) := .of_frame rfl rfl rfl rfl rfl

/-- The drive unit at GO ONLINE: the first presentation (R4). -/
def State.presented (s : State) : State := { s with drive := s.drive.goOnline s.items }

/-- GO ONLINE as its changes in turn (R72). -/
theorem State.goOnline_eq (s : State) : s.goOnline =
    ((((s.changeState .assembly).presented).clearOwnCoefficients).takeRate.takeRoster).requestBurst (.shape 0) := rfl

/-- The change to ASSEMBLY with the first presentation keeps the laws of a well configured part (R4, R72). -/
theorem State.presented_kept (hs : s.run.state = .offline) (hst : s.items.station ≠ 0) (hc : s.items.cmdMin < s.items.cmdMax) :
    Kept s (s.changeState .assembly).presented := by
  have hi : (s.changeState .assembly).items = s.items := State.items_of_steady (State.steady_of_quiet (s.changeState_quiet _))
  have hd : (s.changeState .assembly).presented.drive = s.drive.goOnline s.items := by
    simp [State.presented, hi]
  refine ⟨fun _ => trivial, fun h => State.changeState_countdownLaw (by decide) h, fun h => ?_, fun h => ?_, fun h => ?_⟩
  · rw [State.restLaw_iff] at h ⊢
    rw [hd]
    rw [hs] at h
    exact ⟨fun _ => h.1 rfl, fun e => nomatch (show RunState.assembly = .tripped from e)⟩
  · obtain ⟨hr, -⟩ := h
    have hp := clamp_mem s.items.bias (show s.items.cmdMin * 256 ≤ s.items.cmdMax * 256 by omega)
    have hk := codeOf_mem (v := clamp s.items.bias (s.items.cmdMin * 256) (s.items.cmdMax * 256)) (r := 0) (by decide)
      (by omega : s.items.cmdMin * 256 ≤ _ ∧ _ ≤ s.items.cmdMax * 256)
    have hitems : (s.changeState .assembly).presented.items = s.items := hi
    have hne : (s.changeState .assembly).presented.run.state ≠ .offline := fun e => nomatch (show RunState.assembly = .offline from e)
    rw [State.outputLaw_online hne, hd, State.ownNumber, ← State.items, hitems]
    exact ⟨hr, Nat.one_le_iff_ne_zero.mpr hst, hc, hp, (by decide : (-128 : Int) ≤ 0 ∧ (0 : Int) ≤ 127), hk⟩
  · refine ⟨by rw [show (s.changeState .assembly).presented.items = s.items from hi]; exact h.items, ?_, ?_, ?_⟩
    · obtain ⟨h1, h2, h3, h4, h5, h6⟩ := h.factors
      constructor
      · rw [hd]; exact h1
      · rw [hd]; exact h2
      · show ∀ x, (s.changeState .assembly).scratch.stepped = some x → _
        rw [State.changeState_scratch]; exact h3
      · rw [hd]; exact h4
      · rw [hd]; exact h5
      · show ∀ x ∈ (s.changeState .assembly).orders.pending, _
        rw [State.changeState_orders]; exact h6
    · rw [hd]; exact h.held
    · rw [hd]; exact h.banks

theorem State.tryOnline_kept (hs : s.run.state = .offline) : Kept s s.tryOnline := by
  unfold State.tryOnline
  split
  · exact s.finish_kept _ _
  · rename_i h
    obtain ⟨hst, -, -, hc, -⟩ := Items.fault?_none h
    rw [State.goOnline_eq]
    have h : ∀ u : State, Kept u ((u.takeRate.takeRoster).requestBurst (.shape 0)) := fun u =>
      u.takeRate_kept.trans (u.takeRate.takeRoster_kept.trans (State.requestBurst_kept _ _))
    exact ((State.presented_kept hs hst hc).trans (State.clearOwnCoefficients_kept _)).trans (h _) |>.trans (State.finish_kept _ _ _)

/-! ### CLEAR -/

/-- From STOPPED and TRIPPED a node with R at rest may pass to STANDBY or ASSEMBLY (R95, R96). -/
theorem State.leaveStop_kept (hs : s.run.state = .stopped ∨ s.run.state = .tripped)
    (hr : s.restLaw → s.drive.ramp = 0 ∧ s.drive.runRamp = none) : Kept s s.leaveStop := by
  have h : ∀ r, r = .standby ∨ r = .assembly → Kept s (s.changeState r) := by
    intro r e
    have hne : s.run.state ≠ .offline := by rcases hs with hs | hs <;> simp [hs]
    have hn : r ≠ .offline ∧ r ≠ .tripped ∧ r ≠ .countdown := by rcases e with rfl | rfl <;> decide
    refine ⟨fun h => ?_, State.changeState_countdownLaw hn.2.2, fun h => ⟨fun _ => ?_, fun e => absurd e hn.2.1⟩, ?_, fun h => ?_⟩
    · rw [State.tripLaw_iff, State.changeState_trip]
      rcases e with rfl | rfl
      · exact rfl
      · exact trivial
    · rw [State.changeState_drive]; exact hr h
    · exact State.outputLaw_of_eq (State.items_of_steady (State.steady_of_quiet (s.changeState_quiet r))) (by simp [hne, hn])
        (by simp)
    · refine ⟨?_, State.factors_of_eq (by simp) (by simp) (by simp) h.factors, by simpa using h.held, by simpa using h.banks⟩
      rw [State.items, State.items_of_steady (State.steady_of_quiet (s.changeState_quiet r))]
      exact h.items
  unfold State.leaveStop
  split
  · exact (h _ (.inl rfl)).trans (State.readyTest_kept _)
  · exact h _ (.inr rfl)

/-- The episode cleared touches neither run state nor lines (R95, R96). -/
theorem State.clearEpisode_kept (s : State) : Kept s s.clearEpisode where
  trip := id
  countdown := id
  rest := id
  output := id
  wide := fun h => by
    obtain ⟨h1, h2, h3, h4, h5, h6⟩ := h.factors
    exact ⟨h.items, ⟨h1, h2, h3, h4, h5, h6⟩, h.held, h.banks⟩

theorem State.release_kept (hs : s.run.state = .tripped) : Kept s s.release where
  trip := id
  countdown := id
  rest := fun h => ⟨fun e => absurd (show s.run.state.atRest = true from e) (by simp [hs, RunState.atRest]), h.2⟩
  output := id
  wide := fun h => by
    obtain ⟨h1, -, h3, h4, h5, h6⟩ := h.factors
    exact ⟨h.items, ⟨h1, Nat.zero_le _, h3, h4, h5, h6⟩, h.held, h.banks⟩

theorem State.fetch_drive (s : State) : s.fetch.drive = s.drive := (State.gear_eq_iff.mp s.fetch_gear).2.2.2.2.2.1

theorem State.fetch_state (s : State) : s.fetch.run.state = s.run.state := (State.gear_eq_iff.mp s.fetch_gear).1

theorem State.clearCommand_kept (s : State) : Kept s s.clearCommand := by
  unfold State.clearCommand
  split
  · rename_i hs
    refine (s.clearEpisode_kept.trans ?_).trans (State.finish_kept _ _ _)
    exact State.leaveStop_kept (.inl hs) fun h => h.1 (by rw [show s.clearEpisode.run.state = _ from hs]; rfl)
  · rename_i hs
    unfold State.clearTripped
    split
    · have h1 : Kept s (s.release.setHold false).fetch :=
        ((State.release_kept hs).trans (State.setHold_kept false _)).trans (State.fetch_kept _)
      have hr : (s.release.setHold false).fetch.clearEpisode.run.state = .tripped := (State.fetch_state _).trans hs
      have hd : (s.release.setHold false).fetch.clearEpisode.drive = s.release.drive := State.fetch_drive _
      refine ((h1.trans (State.clearEpisode_kept _)).trans (State.leaveStop_kept (.inr hr) fun h => ⟨?_, (h.2 hr).2⟩)).trans
        (State.finish_kept _ _ _)
      rw [hd]; rfl
    · exact s.finish_kept _ _
  · exact s.finish_kept _ _

end Sys2Proof.Machine

namespace Sys2Proof.Machine

variable {s t u : State}

/-! ### A whole step -/

/-- Each law of run and drive that holds before a step holds after it. -/
structure StepKept (s t : State) : Prop where
  trip : s.tripLaw → t.tripLaw
  countdown : s.countdownLaw → t.countdownLaw
  rest : s.restLaw → t.restLaw
  output : s.outputLaw → t.outputLaw
  factor : s.factorLaw → t.factorLaw

theorem State.factorLaw_of_wide (h : s.wide) : s.factorLaw :=
  ⟨h.items, h.factors.level, h.factors.ramp, h.held, h.banks, h.factors.levelRamp, h.factors.runRamp, h.factors.orders⟩

/-- With no values of a boundary at hand the factor law is that within a step. -/
theorem State.wide_of_factorLaw (h : s.factorLaw) (hx : s.scratch.stepped = none) : s.wide := by
  obtain ⟨h1, h2, h3, h4, h5, h6, h7, h8⟩ := h
  exact ⟨h1, ⟨h2, h3, fun x e => (by rw [hx] at e; cases e), h6, h7, h8⟩, h4, h5⟩

/-- The parts that the laws speak of stand over a step. -/
theorem StepKept.of_frame (hr : t.run = s.run) (hd : t.drive = s.drive) (ho : t.orders = s.orders)
    (hi : t.port.items = s.port.items) : StepKept s t where
  trip := State.tripLaw_of_eq (by rw [hr]) (by rw [hr])
  countdown := State.countdownLaw_of_eq (by rw [hr]) (by rw [hr])
  rest := State.restLaw_of_eq (by rw [hr]) hd
  output := State.outputLaw_of_eq hi (by rw [hr]) (by rw [hd])
  factor := by unfold State.factorLaw State.items; rw [hd, ho, hi]; exact id

/-- A reset brings every law with it (R68). -/
theorem State.resetBlocks_stepKept (c : Condition) (s u : State) : StepKept s (u.resetBlocks c) :=
  ⟨fun _ => State.reset_tripLaw, fun _ => State.reset_countdownLaw, fun _ => State.reset_restLaw,
    fun _ => State.reset_outputLaw, fun _ => State.reset_factorLaw⟩

/-- An act that keeps the laws within a step keeps them over a step whose scratch is at rest. -/
theorem State.whileRunning_kept {f : State → State} (h : ∀ u, Kept u (f u)) (s : State) : StepKept s (s.whileRunning f) := by
  unfold State.whileRunning
  split
  · have h' := h s.settle
    refine ⟨h'.trip, h'.countdown, h'.rest, h'.output, fun g => ?_⟩
    exact State.factorLaw_of_wide (((State.settle_kept _).wide) (h'.wide (State.wide_of_factorLaw (s := s.settle) g rfl)))
  · exact .of_frame rfl rfl rfl rfl

theorem State.bringing_kept (x : Happening) {f : State → State} (h : ∀ u, Kept u (f u)) (u : State) :
    Kept u (u.bringing x f) := by
  unfold State.bringing
  split
  · exact h u
  · exact .refl u

theorem State.command_kept (code : Nat) (tag : Byte) (args : List Word) {owner : State → State} (h : ∀ u, Kept u (owner u))
    (s : State) : StepKept s (s.command code tag args owner) :=
  State.whileRunning_kept (fun u => u.takeCommand_kept code tag args h) s

/-! ### One reference clock edge -/

theorem State.advanceClock_kept (s : State) : Kept s s.advanceClock := by
  unfold State.advanceClock
  split
  · exact s.boundary_kept []
  · dsimp only
    split
    · exact (s.elapse_kept 1).trans (State.takeInstant_kept _ _)
    · exact s.elapse_kept 1

theorem State.expireIfLast_kept (b : State) (d : Side) (s : State) : Kept s (State.expireIfLast b d s) := by
  unfold State.expireIfLast
  split
  · exact s.expireHold_kept d
  · exact .refl s

theorem State.runEdge_stepKept (s : State) : StepKept s (s.whileRunning State.runEdge) := by
  by_cases h : s.settle.resetDue = true
  · unfold State.whileRunning State.runEdge
    rw [if_pos h]
    split
    · have g := State.resetBlocks_stepKept (.nodeReset 200) s s.settle
      exact ⟨g.trip, g.countdown, g.rest, g.output, g.factor⟩
    · exact .of_frame rfl rfl rfl rfl
  · have e : s.whileRunning State.runEdge =
        s.whileRunning (fun u => State.expireIfLast u .east (State.expireIfLast u .west u.advanceClock)) := by
      unfold State.whileRunning State.runEdge
      rw [if_neg h]
    rw [e]
    exact State.whileRunning_kept (fun u => (u.advanceClock_kept.trans (State.expireIfLast_kept _ _ _)).trans
      (State.expireIfLast_kept _ _ _)) s

theorem State.clockEdge_stepKept (s : State) : StepKept s s.clockEdge := by
  unfold State.clockEdge
  split
  · exact .of_frame rfl rfl rfl rfl
  · exact .of_frame rfl rfl rfl rfl
  · split <;> exact .of_frame rfl rfl rfl rfl
  · exact s.runEdge_stepKept

/-! ### Every command -/

theorem State.endCycle_bringing_kept (x : Happening) (first : List BoundaryAction) (s : State) :
    StepKept s (s.whileRunning (State.bringing x (State.endCycle first))) :=
  State.whileRunning_kept (State.bringing_kept x (State.endCycle_kept first)) s

theorem State.takeWaiting_bringing_kept (x : Happening) (n : Nat) (s : State) :
    StepKept s (s.whileRunning (State.bringing x (State.takeWaiting n))) :=
  State.whileRunning_kept (State.bringing_kept x (State.takeWaiting_kept n)) s

theorem State.elapseWithin_kept (n : Nat) (s : State) : Kept s (s.elapseWithin n) := s.elapse_kept _

theorem State.onLane_kept (l : Lane) (f : LaneRec → LaneRec) (s : State) : Kept s (s.onLane l f) := .of_frame rfl rfl rfl rfl rfl

/-- Every command keeps the laws of run and drive. -/
theorem exec_stepKept (c : Instr) (s : State) (h : exec c s = .next t) : StepKept s t := by
  have hr : ∀ {a : State}, Host.Outcome.next (φ := Fault) (ρ := Refusal) a = .next t → StepKept s a → StepKept s t := by
    rintro a h g; cases h; exact g
  cases c with
  | powerOnReset => exact hr h (State.resetBlocks_stepKept _ _ _)
  | resetRelease =>
    refine hr h ?_
    split <;> exact .of_frame rfl rfl rfl rfl
  | resetNodeTakesEffect =>
    refine hr h ?_
    split
    · exact State.resetBlocks_stepKept _ _ _
    · exact .of_frame rfl rfl rfl rfl
  | resetNodeEnd =>
    refine hr h ?_
    split <;> exact .of_frame rfl rfl rfl rfl
  | cycleBoundary first => exact hr h (s.whileRunning_kept (State.endCycle_kept first))
  | outputInstant first => exact hr h (s.whileRunning_kept (State.instant_kept first))
  | feedbackWord straddles bits =>
    refine hr h ?_
    split
    · exact .of_frame rfl rfl rfl rfl
    · exact s.whileRunning_kept (State.receiveWord_kept bits)
  | servoReady level => exact hr h (s.whileRunning_kept (State.setReady_kept level))
  | signalPresent d => exact hr h (s.whileRunning_kept (State.gainSignal_kept d))
  | signalLost d => exact hr h (s.whileRunning_kept (State.loseSignal_kept d))
  | downHoldExpiry d => exact hr h (s.whileRunning_kept (State.expireHold_kept d))
  | laneWord d p f c => exact hr h (s.whileRunning_kept (State.takeLaneWord_kept d p f c))
  | sideTrained d =>
    refine hr h (s.whileRunning_kept fun u => ?_)
    split
    · exact u.cleanWord_kept d
    · exact .refl u
  | frameArrival l c b => exact hr h (s.whileRunning_kept (State.takeArrival_kept l c b))
  | frameCheckDown d => exact hr h (s.whileRunning_kept (State.failCheck_kept d))
  | transmitStart l n =>
    exact hr h (s.whileRunning_kept fun u => (u.elapseWithin_kept n).trans (State.startTransmission_kept l _))
  | deliveryCopyTaken n => exact hr h (s.whileRunning_kept (State.takeWaiting_kept n))
  | resynchronisation n => exact hr h (s.takeWaiting_bringing_kept _ n)
  | pathDegraded n => exact hr h (s.takeWaiting_bringing_kept _ n)
  | stepLoss n => exact hr h (s.takeWaiting_bringing_kept _ n)
  | feedbackLoss first => exact hr h (s.endCycle_bringing_kept _ first)
  | rampEndReport first => exact hr h (s.endCycle_bringing_kept _ first)
  | assemblyComplete first => exact hr h (s.endCycle_bringing_kept _ first)
  | peerSilent first j => exact hr h (s.endCycle_bringing_kept _ first)
  | ringOpen first l => exact hr h (s.endCycle_bringing_kept _ first)
  | markerPulseEnd first => exact hr h (s.endCycle_bringing_kept _ first)
  | peerLate first j => exact hr h (s.whileRunning_kept (State.bringing_kept _ (State.instant_kept first)))
  | sampleBurstCompletion => exact hr h (s.whileRunning_kept State.sampleCompletion_kept)
  | shapeLoadBurstCompletion => exact hr h (s.whileRunning_kept State.shapeCompletion_kept)
  | writeChunkCompletion => exact hr h (s.whileRunning_kept State.writeCompletion_kept)
  | readChunkCompletion => exact hr h (s.whileRunning_kept State.readCompletion_kept)
  | malformedTransaction x b => exact hr h (s.whileRunning_kept (State.malformedCommand_kept x b))
  | readReply n => exact hr h (s.whileRunning_kept (State.readReply_kept n))
  | getStatus tag args => exact hr h (s.command_kept _ tag args (withCount_kept 0 args fun _ u => u.finish_kept _ _))
  | writeConfig tag args => exact hr h (s.command_kept _ tag args (State.writeConfig_kept args))
  | goOnline tag args =>
    exact hr h (s.command_kept _ tag args (withCount_kept 0 args fun _ => inStates_kept _ fun u hu =>
      State.tryOnline_kept (List.mem_singleton.mp hu)))
  | writePage tag args => exact hr h (s.command_kept _ tag args (State.writePage_kept args))
  | readPage tag args => exact hr h (s.command_kept _ tag args (withCount_kept 3 args fun _ => State.readPage_kept args))
  | appendSegment tag args => exact hr h (s.command_kept _ tag args (withCount_kept 8 args fun _ => State.appendSegment_kept args))
  | discardSchedule tag args =>
    exact hr h (s.command_kept _ tag args (withCount_kept 0 args fun _ => inStates_kept _ fun u _ => u.discardSchedule_kept))
  | seekRepeat tag args =>
    exact hr h (s.command_kept _ tag args (withCount_kept 1 args fun _ => inStates_kept _ fun u _ => u.seekRepeat_kept args))
  | writeCoupling tag args => exact hr h (s.command_kept _ tag args (withCount_kept 2 args fun _ => State.writeCoupling_kept args))
  | applyCoupling tag args => exact hr h (s.command_kept _ tag args (withCount_kept 1 args fun _ => State.applyCoupling_kept args))
  | start tag args => exact hr h (s.command_kept _ tag args (orderOwner_kept 2 args _ .start _ fun _ => rfl))
  | pause tag args => exact hr h (s.command_kept _ tag args (orderOwner_kept 1 args _ .pause _ nofun))
  | resume tag args => exact hr h (s.command_kept _ tag args (orderOwner_kept 1 args _ .resume _ nofun))
  | setLevel tag args => exact hr h (s.command_kept _ tag args (orderOwner_kept 2 args _ .level _ nofun))
  | stop tag arrival =>
    exact hr h (s.command_kept _ tag arrival.words (withCount_kept 0 _ fun _ => inStates_kept _ fun u _ =>
      u.stopCommand_kept arrival.ahead))
  | clear tag args => exact hr h (s.command_kept _ tag args (withCount_kept 0 args fun _ => State.clearCommand_kept))
  | readEvent tag args => exact hr h (s.command_kept _ tag args (withCount_kept 0 args fun _ => State.readEvent_kept))
  | readTable tag args => exact hr h (s.command_kept _ tag args (withCount_kept 2 args fun _ => State.readTable_kept _ _))
  | clearCounters tag args => exact hr h (s.command_kept _ tag args (withCount_kept 0 args fun _ => State.clearCounters_kept))
  | resetNode tag args => exact hr h (s.command_kept _ tag args (withCount_kept 0 args fun _ => State.resetNode_kept))
  | arrivalStamp l n => exact hr h (s.whileRunning_kept fun u => (u.elapseWithin_kept n).trans (State.onLane_kept l _ _))
  | transmissionEnd l => exact hr h (s.whileRunning_kept fun u => u.onLane_kept l _)
  | powerLoss => exact hr h (.of_frame rfl rfl rfl rfl)

/-- Every step keeps the laws of run and drive. -/
theorem step_stepKept (h : step s = .next t) : StepKept s t := by
  unfold step at h
  split at h
  · cases h; exact s.clockEdge_stepKept
  · rename_i c rest _
    have g := exec_stepKept c _ h
    exact ⟨g.trip, g.countdown, g.rest, g.output, g.factor⟩

/-- Settles O53: the moves of the gear and the few commands beside them keep each law of trip line, countdown order and rest. -/
theorem stepKeepsRunLaws : Obligations.StepKeepsRunLaws := fun _ _ h =>
  have g := step_stepKept h
  ⟨g.trip, g.countdown, g.rest⟩

/-- Settles O55: every computation stays within its limits, and every ramp and order within the factor range. -/
theorem stepKeepsDriveLaws : Obligations.StepKeepsDriveLaws := fun _ _ h =>
  have g := step_stepKept h
  ⟨g.output, g.factor⟩

end Sys2Proof.Machine

namespace Sys2Proof.Machine

/-! ### The combined factor (R7) -/

/-- A rounded product of two factors reaches 1 only when both are 1 (in units of 1/32768). -/
theorem roundedProduct_eq_one_iff {a b : Nat} (ha : a ≤ 32768) (hb : b ≤ 32768) :
    (a * b + 16384) / 32768 = 32768 ↔ a = 32768 ∧ b = 32768 := by
  constructor
  · intro h
    have h1 : a * b ≤ a * 32768 := Nat.mul_le_mul_left a hb
    have h2 : a * b ≤ 32768 * b := Nat.mul_le_mul_right b ha
    omega
  · rintro ⟨rfl, rfl⟩; rfl

theorem roundedProduct_zero_left (b : Nat) : (0 * b + 16384) / 32768 = 0 := by rw [Nat.zero_mul]

theorem roundedProduct_zero_right (a : Nat) : (a * 0 + 16384) / 32768 = 0 := by rw [Nat.mul_zero]

/-- Settles O18: both roundings are the rounded product of two factors. -/
theorem combinedFactorLaw : Obligations.CombinedFactorLaw := by
  rintro e l r he hl hr m1 hm
  have hm1 : m1 ≤ 32768 := hm ▸ (roundedProduct_le hl).trans he
  have hc : combinedFactor e l r = (m1 * r + 16384) / 32768 := by rw [hm]; rfl
  have hone : m1 = 32768 ↔ e = 32768 ∧ l = 32768 := by rw [hm]; exact roundedProduct_eq_one_iff he hl
  rw [hc]
  refine ⟨rfl, Nat.mul_le_mul he hl, Nat.mul_le_mul hm1 hr, hm1, (roundedProduct_le hr).trans hm1, ?_, ?_, ?_, ?_⟩
  · rw [roundedProduct_eq_one_iff hm1 hr, hone, and_assoc]
  · rintro (rfl | rfl | rfl)
    · rw [hm, roundedProduct_zero_left, roundedProduct_zero_left]
    · rw [hm, roundedProduct_zero_right, roundedProduct_zero_left]
    · exact roundedProduct_zero_right m1
  · intro k hk; rw [hm, hk]; omega
  · intro k hk; rw [hk]; omega

/-! ### The base term (R8) -/

/-- The product of sample, gain and factor stays in its range, both ends reached. -/
theorem baseProduct_mem {d : Int} {g m : Nat} (h1 : -32768 ≤ d) (h2 : d ≤ 32767) (hg : g ≤ 65535) (hm : m ≤ 32768) :
    -70367670435840 ≤ d * g * m ∧ d * g * m ≤ 70365522984960 := by
  have hp : g * m ≤ 65535 * 32768 := Nat.mul_le_mul hg hm
  have hz : (0 : Int) ≤ (g * m : Nat) := Int.natCast_nonneg _
  have e : d * g * m = d * (g * m : Nat) := by push_cast; ring
  rw [e]
  generalize g * m = p at hp hz
  constructor <;> nlinarith

/-- Without a head nothing is consumed (R43). -/
theorem Sched.consume_of_head_none {c : Sched} (h : c.head = none) : c.consume = (c, none) := by
  unfold Sched.consume
  rw [h]
  split
  · simp_all
  · rfl

/-- Outside the playing states and without a head no position is consumed (R6, R8). -/
theorem State.consume_none {s : State}
    (h : (s.run.state ≠ .run ∧ s.run.state ≠ .pausing ∧ s.run.state ≠ .stopping) ∨ s.sched.head = none) :
    s.consume.2 = none := by
  unfold State.consume
  split
  · rename_i hp
    rcases h with ⟨h1, h2, h3⟩ | h
    · revert hp h1 h2 h3; cases s.run.state <;> simp [RunState.playing]
    · rw [Sched.consume_of_head_none h]
  · rfl

/-- Settles O19: the range of the product bounds the rounded term. -/
theorem baseTermLaw : Obligations.BaseTermLaw := by
  refine ⟨fun d g m h1 h2 hg hm => ?_, by decide, by decide, fun s h => ?_⟩
  · obtain ⟨p1, p2⟩ := baseProduct_mem h1 h2 hg hm
    unfold baseTerm roundShift
    generalize d * g * m = p at p1 p2
    norm_num
    omega
  · rw [State.consume_none h]
    exact ⟨rfl, rfl⟩

/-! ### The feedback chosen from a window (R11) -/

section Window
variable {w : List WindowRecord} (hw : w.Pairwise (fun x y => x.index.toNat < y.index.toNat))
include hw

/-- In a window of rising index a record is told by its index. -/
theorem window_inj {x y : WindowRecord} (hx : x ∈ w) (hy : y ∈ w) (h : x.index.toNat = y.index.toNat) : x = y := by
  have hn : (w.map (fun x => x.index.toNat)).Nodup := (List.pairwise_map.mpr hw).imp Nat.ne_of_lt
  exact List.inj_on_of_nodup_map hn hx hy h

/-- The record of the largest index stands last. -/
theorem window_getLast? {x : WindowRecord} (hx : x ∈ w) (h : ∀ y ∈ w, y.index.toNat ≤ x.index.toNat) :
    w.getLast? = some x := by
  rcases List.eq_nil_or_concat w with rfl | ⟨l, y, rfl⟩
  · exact absurd hx List.not_mem_nil
  · rw [List.concat_eq_append] at *
    rw [List.getLast?_concat]
    rcases List.mem_append.mp hx with hl | hl
    · have hlt := (List.pairwise_append.mp hw).2.2 x hl y List.mem_cons_self
      have := h y (by simp)
      omega
    · rw [List.mem_singleton.mp hl]

theorem chooseFeedback_at {x : WindowRecord} (hx : x ∈ w) {t : Nat} (ht : x.index.toNat = t) :
    chooseFeedback w t = some (x.feedback, x.stale) := by
  have hf : w.find? (fun y => y.index.toNat == t) = some x := by
    cases h : w.find? (fun y => y.index.toNat == t) with
    | none => exact absurd (List.find?_eq_none.mp h x hx) (by simp [ht])
    | some y =>
      have hy := List.find?_some h
      rw [window_inj hw (List.mem_of_find?_eq_some h) hx (by simpa [ht] using hy)]
  unfold chooseFeedback
  rw [hf]

omit hw in
theorem find?_none_of_ne {t : Nat} (h : ∀ y ∈ w, y.index.toNat ≠ t) : w.find? (fun y => y.index.toNat == t) = none :=
  List.find?_eq_none.mpr fun y hy => by simpa using h y hy

theorem chooseFeedback_below {x : WindowRecord} (hx : x ∈ w) {t : Nat} (hne : ∀ y ∈ w, y.index.toNat ≠ t)
    (ht : x.index.toNat < t) (hmax : ∀ y ∈ w, y.index.toNat < t → y.index.toNat ≤ x.index.toNat) :
    chooseFeedback w t = some (x.feedback, true) := by
  have hl : (w.filter (fun x => decide (x.index.toNat < t))).getLast? = some x :=
    window_getLast? (hw.filter _) (List.mem_filter.mpr ⟨hx, by simpa using ht⟩)
      fun y hy => hmax y (List.mem_of_mem_filter hy) (by simpa using (List.mem_filter.mp hy).2)
  unfold chooseFeedback
  rw [find?_none_of_ne hne, hl]

theorem chooseFeedback_above {x : WindowRecord} (hx : x ∈ w) {t : Nat} (h : ∀ y ∈ w, t < y.index.toNat)
    (hmax : ∀ y ∈ w, y.index.toNat ≤ x.index.toNat) : chooseFeedback w t = some (x.feedback, true) := by
  have hl : w.filter (fun x => decide (x.index.toNat < t)) = [] :=
    List.filter_eq_nil_iff.mpr fun y hy => by simpa using Nat.le_of_lt (h y hy)
  unfold chooseFeedback
  rw [find?_none_of_ne (fun y hy => Nat.ne_of_gt (h y hy)), hl, window_getLast? hw hx hmax]
  rfl

end Window

/-- A choice fails on an empty window alone. -/
theorem chooseFeedback_eq_none {w : List WindowRecord} {t : Nat} : chooseFeedback w t = none ↔ w = [] := by
  constructor
  · unfold chooseFeedback
    split
    · simp
    · split
      · simp
      · intro h; simpa using h
  · rintro rfl; rfl

/-- Settles O20: the four choices of R11, and none from an empty window alone. -/
theorem chosenFeedbackLaw : Obligations.ChosenFeedbackLaw := fun _ _ _ hw =>
  ⟨fun _ hx ht hs => ⟨hs ▸ chooseFeedback_at hw hx ht, rfl⟩, fun _ hx ht hs => ⟨hs ▸ chooseFeedback_at hw hx ht, rfl⟩,
    fun _ hx hne ht hmax => ⟨chooseFeedback_below hw hx hne ht hmax, rfl⟩,
    fun _ hx h hmax => ⟨chooseFeedback_above hw hx h hmax, rfl⟩, chooseFeedback_eq_none⟩

/-! ### The coupling sum (R14) -/

theorem couplingProduct_mem {c f : Int} (hc : inSigned16 c) (h1 : -8388608 ≤ f) (h2 : f ≤ 8388607) :
    -274877906944 ≤ c * f ∧ c * f ≤ 274877906944 := by
  obtain ⟨c1, c2⟩ := hc
  constructor <;> nlinarith

theorem couplingTerm_mem {c f : Int} (hc : inSigned16 c) (h1 : -8388608 ≤ f) (h2 : f ≤ 8388607) :
    -8388608 ≤ couplingTerm c f ∧ couplingTerm c f ≤ 8388608 := by
  obtain ⟨p1, p2⟩ := couplingProduct_mem hc h1 h2
  unfold couplingTerm roundShift
  norm_num
  omega

/-- A chosen feedback is that of a record of the window. -/
theorem chooseFeedback_mem {w : List WindowRecord} {t : Nat} {f : Int} {b : Bool} (h : chooseFeedback w t = some (f, b)) :
    ∃ x ∈ w, x.feedback = f := by
  unfold chooseFeedback at h
  split at h
  · rename_i x hx
    cases h
    exact ⟨x, List.mem_of_find?_eq_some hx, rfl⟩
  · split at h
    · rename_i x hx
      cases h
      exact ⟨x, List.mem_of_mem_filter (List.mem_of_mem_getLast? hx), rfl⟩
    · obtain ⟨x, hx, e⟩ := Option.map_eq_some_iff.mp h
      cases e
      exact ⟨x, List.mem_of_mem_getLast? hx, rfl⟩

/-- The contribution of a station to the coupling sum: its term, or 0 (R10, R14). -/
def State.share (s : State) (t : Nat) (j : Station) : Int := ((s.termOf t j).map (·.1)).getD 0

theorem State.share_of_couples_false {s : State} {j : Station} (t : Nat) (h : s.couples j = false) : s.share t j = 0 := by
  simp [State.share, State.termOf, h]

theorem State.share_of_empty {s : State} {j : Station} (t : Nat) (h : (s.peer j).window = []) : s.share t j = 0 := by
  simp [State.share, State.termOf, h, chooseFeedback]

theorem State.share_mem {s : State} {j : Station} (t : Nat) (hc : inSigned16 (s.drive.active.get j))
    (hf : feedbackSound (s.peer j).window) : -8388608 ≤ s.share t j ∧ s.share t j ≤ 8388608 := by
  unfold State.share State.termOf
  split
  · cases h : chooseFeedback (s.peer j).window t with
    | none => simp
    | some x =>
      obtain ⟨y, hy, e⟩ := chooseFeedback_mem h
      have := hf y hy
      exact couplingTerm_mem hc (e ▸ this.1) (e ▸ this.2)
  · decide

theorem stations_eq : stations = List.finRange 16 := by decide

theorem State.couplingSum_eq (s : State) (t : Nat) : s.couplingSum t = ∑ j : Station, s.share t j := by
  have h : ∀ j : Station, (match s.termOf t j with | some (x, _) => x | none => 0) = s.share t j := fun j => by
    unfold State.share; cases s.termOf t j <;> rfl
  rw [Fin.sum_univ_def, ← stations_eq]
  unfold State.couplingSum
  exact congrArg List.sum (List.map_congr_left fun j _ => h j)

/-- Settles O21: fifteen stations at the most share in the sum, each within the bound of a term. -/
theorem couplingSumLaw : Obligations.CouplingSumLaw := by
  refine ⟨fun c f hc h1 h2 => ?_, State.couplingSum_eq, fun s t h => ?_, fun s t h1 h2 hc hf => ?_⟩
  · obtain ⟨p1, p2⟩ := couplingProduct_mem hc h1 h2
    obtain ⟨t1, t2⟩ := couplingTerm_mem hc h1 h2
    exact ⟨rfl, p1, p2, t1, t2⟩
  · rw [State.couplingSum_eq]
    exact Finset.sum_eq_zero fun j _ => (h j).elim (State.share_of_couples_false t) (State.share_of_empty t)
  · obtain ⟨own, ho⟩ : ∃ own : Station, stationNumber own = s.ownNumber :=
      ⟨⟨s.items.station - 1, by omega⟩, by show s.items.station - 1 + 1 = s.items.station; omega⟩
    have hz : s.share t own = 0 := State.share_of_couples_false t (by simp [State.couples, ho])
    rw [State.couplingSum_eq, ← Finset.add_sum_erase _ _ (Finset.mem_univ own), hz, zero_add]
    have hcard : (Finset.univ.erase own).card = 15 := by simp
    have hb := fun j => State.share_mem t (hc j) (hf j)
    constructor
    · have := Finset.card_nsmul_le_sum (Finset.univ.erase own) (s.share t) (-8388608) fun j _ => (hb j).1
      rw [hcard] at this
      simpa using this
    · have := Finset.sum_le_card_nsmul (Finset.univ.erase own) (s.share t) 8388608 fun j _ => (hb j).2
      rw [hcard] at this
      simpa using this

/-! ### One computation (R16 to R19) -/

/-- A sum that the limits leave at P: the computation leaves P, and the code and the residual share out P and the residual. -/
theorem Drive.compute_steady {c : Items} {d : Drive} {x : Int} (hs : 0 ≤ c.slewMax) (hc : c.carry = true)
    (hx : clamp x (c.cmdMin * 256) (c.cmdMax * 256) = d.prev) :
    (d.compute c x).prev = d.prev ∧ 256 * (d.compute c x).code = d.prev + d.residual - (d.compute c x).residual := by
  have hp : clamp d.prev (d.prev - c.slewMax) (d.prev + c.slewMax) = d.prev := clamp_of_mem (by omega) (by omega)
  simp only [Drive.compute, Drive.present, slewClamp, commandClamp, carriedValue, hx, hp, hc, if_true]
  exact ⟨trivial, by ring⟩

theorem Drive.compute_steady_iterate {c : Items} {d : Drive} {x : Int} (hs : 0 ≤ c.slewMax) (hc : c.carry = true)
    (hx : clamp x (c.cmdMin * 256) (c.cmdMax * 256) = d.prev) (k : Nat) :
    ((Drive.compute c x)^[k] d).prev = d.prev := by
  induction k with
  | zero => rfl
  | succ k ih =>
    rw [Function.iterate_succ_apply']
    exact (Drive.compute_steady hs hc (hx.trans ih.symm)).1.trans ih

/-- Settles O22: the limits of one computation, and the residual that telescopes over k of them. -/
theorem computationKeepsItsLimits : Obligations.ComputationKeepsItsLimits := by
  refine ⟨?_, ?_⟩
  · rintro c d x hi hlt h1 h2 h3 h4 e rfl
    obtain ⟨g1, g2, g3, g4⟩ := Drive.compute_ranges x (by unfold Items.inRanges at hi; omega) hlt ⟨h1, h2⟩ ⟨h3, h4⟩
    exact ⟨g1.1, g1.2, g2.1, g2.2, g3.1, g3.2, g4.1, g4.2, fun h => by simp [Drive.compute, Drive.present, h]⟩
  · intro c d x k hi hc hx
    have hs : 0 ≤ c.slewMax := by unfold Items.inRanges at hi; omega
    induction k with
    | zero => simp
    | succ k ih =>
      have hp := Drive.compute_steady_iterate hs hc hx k
      have hk := (Drive.compute_steady hs hc (hx.trans hp.symm)).2
      rw [hp] at hk
      rw [Finset.sum_range_succ, mul_add, ih, Function.iterate_succ_apply', hk]
      push_cast
      ring

/-! ### Ramps (R22) -/

/-- The value of a ramp before it is read as a factor: never negative. -/
theorem Ramp.value_cast (r : Ramp) {k : Nat} (hn : 1 ≤ r.length) (hk : k ≤ r.length) :
    (r.value k : Int) = r.start + (2 * ((r.target : Int) - r.start) * k + r.length) / (2 * r.length) := by
  have h : -(r.start : Int) ≤ (2 * ((r.target : Int) - r.start) * k + r.length) / (2 * r.length) := by
    rw [Int.le_ediv_iff_mul_le (by omega)]
    have h1 : (0 : Int) ≤ r.target * k := by positivity
    have h2 : (0 : Int) ≤ r.start * (r.length - k) := mul_nonneg (by omega) (by omega)
    nlinarith
  unfold Ramp.value
  rw [Int.toNat_of_nonneg (by omega)]

/-- One step of the L ramp that is not its last. -/
theorem Drive.stepLevel_some {d : Drive} {r : Ramp} (h : d.levelRamp = some r) : d.stepLevel =
    { d with level := r.value (r.step + 1)
             levelRamp := if r.length ≤ r.step + 1 then none else some { r with step := r.step + 1 } } := by
  unfold Drive.stepLevel; rw [h]

theorem Drive.stepLevel_iterate {d : Drive} {r : Ramp} (h : d.levelRamp = some r) (hs : r.step = 0) (k : Nat)
    (hk : k + 1 < r.length) :
    Drive.stepLevel^[k + 1] d = { d with level := r.value (k + 1), levelRamp := some { r with step := k + 1 } } := by
  induction k with
  | zero =>
    rw [Function.iterate_one, Drive.stepLevel_some h, hs, if_neg (by omega)]
  | succ k ih =>
    rw [Function.iterate_succ_apply', ih (by omega), Drive.stepLevel_some rfl, if_neg (by show ¬ r.length ≤ k + 1 + 1; omega)]
    rfl

/-- Settles O23: the values of R22, and the stepping that takes them one by one. -/
theorem rampReachesItsTarget : Obligations.RampReachesItsTarget := by
  refine ⟨fun r _ _ hn k hk => ⟨r.value_cast hn hk, (r.value_mem hn hk).1, (r.value_mem hn hk).2, r.value_length hn⟩,
    fun d r h hs _ _ => ⟨fun k h1 h2 => ?_, fun hn => ?_⟩⟩
  · obtain ⟨k, rfl⟩ : ∃ n, k = n + 1 := ⟨k - 1, by omega⟩
    exact Drive.stepLevel_iterate h hs k h2
  · have hv := r.value_length hn
    obtain ⟨n, hl⟩ : ∃ n, r.length = n + 1 := ⟨r.length - 1, by omega⟩
    rw [hl] at hv ⊢
    cases n with
    | zero => rw [Function.iterate_one, Drive.stepLevel_some h, hs, hl, if_pos (le_refl _), hv]
    | succ n =>
      rw [Function.iterate_succ_apply', Drive.stepLevel_iterate h hs n (by omega), Drive.stepLevel_some rfl,
        if_pos (by show r.length ≤ n + 1 + 1; omega)]
      show ({ d with level := r.value (n + 1 + 1), levelRamp := none } : Drive) = _
      rw [hv]

end Sys2Proof.Machine

namespace Sys2Proof.Machine

variable {s : State} {code n : Nat} {tag : Byte}

/-! ### A supervisor command taken (R196, R198) -/

/-- A command taken while none is in progress is its owner's work on the state in progress. -/
theorem State.command_eq (h : s.takesCommands) (code : Nat) (tag : Byte) (args : List Word) (owner : State → State) :
    s.command code tag args owner = (owner (s.inProgress code tag args.length)).settle := by
  obtain ⟨hc, hp⟩ := h
  have hr : s.running = true := by simp [State.running, hc]
  simp only [State.command, State.whileRunning, hr, if_true, State.takeCommand]
  rw [show s.settle.port.progress = none from hp]
  rfl

@[simp] theorem State.inProgress_run : (s.inProgress code tag n).run = s.run := rfl
@[simp] theorem State.inProgress_items : (s.inProgress code tag n).items = s.items := rfl

/-- A command finished with nothing changed. -/
theorem State.finish_inProgress (status : Status) (words : List Word) :
    ((s.inProgress code tag n).finish status words).settle = s.replied code tag n status words := rfl

/-- A finished command has its reply (R198). -/
theorem State.finish_hasReply {t : State} {a : Status} {w : List Word} {r : Reply} (h : t.port.reply = some r) :
    (t.finish a w).settle.hasReply r.code r.tag a w := by
  refine ⟨rfl, ?_⟩
  simp [State.finish, State.settle, h]

/-- The right number of argument words (R202). -/
theorem withCount_of_eq {args : List Word} {owner : State → State} (h : args.length = n) :
    withCount n args owner s = owner s := if_pos h

/-- An owner of run states it is allowed in (R202). -/
theorem inStates_of_mem {allowed : List RunState} {owner : State → State} (h : s.run.state ∈ allowed) :
    inStates allowed owner s = owner s := if_pos h

/-- A command outside its run states is refused (R202). -/
theorem inStates_of_not_mem {allowed : List RunState} {owner : State → State} (h : s.run.state ∉ allowed) :
    inStates allowed owner s = s.refuse .refusedState := if_neg h

/-! ### WRITE CONFIG (R200) -/

theorem unsignedItem_of_mem {lo hi : Nat} {w : Word} (h1 : lo ≤ w.toNat) (h2 : w.toNat ≤ hi) :
    unsignedItem lo hi w = some w.toNat := if_pos (decide_eq_true ⟨h1, h2⟩)

theorem unsignedItem_of_not_mem {lo hi : Nat} {w : Word} (h : w.toNat < lo ∨ hi < w.toNat) :
    unsignedItem lo hi w = none := if_neg (by simp [inRange]; omega)

theorem signedItem_of_mem {lo hi : Int} {w : Word} (h1 : lo ≤ w.toInt) (h2 : w.toInt ≤ hi) :
    signedItem lo hi w = some w.toInt := if_pos (decide_eq_true ⟨h1, h2⟩)

theorem signedItem_of_not_mem {lo hi : Int} {w : Word} (h : w.toInt < lo ∨ hi < w.toInt) :
    signedItem lo hi w = none := if_neg (by simp [inSignedRange]; omega)

/-- The rate code is an unsigned item like the others (R200). -/
theorem rateItem_eq (c : Items) (w : Word) : (if h : w.toNat < 3 then some { c with rate := ⟨w.toNat, h⟩ } else none) =
    (unsignedItem 0 2 w).map fun v => ({ c with rate := Fin.ofNat 3 v } : Items) := by
  split
  · rename_i h
    rw [unsignedItem_of_mem (Nat.zero_le _) (by omega)]
    simp [Fin.ofNat, Nat.mod_eq_of_lt h]
  · rw [unsignedItem_of_not_mem (by omega)]
    rfl

/-- An unsigned item takes a value in its range alone (R200). -/
theorem Items.writeValue_unsigned (c : Items) (w : Word) :
    ∀ x ∈ unsignedItems, c.writeValue x.1 w = (unsignedItem x.2.1 x.2.2.1 w).map (x.2.2.2 c) := by
  have hb : ∀ v : Nat, (v == 1) = decide (v = 1) := fun v => rfl
  simp only [unsignedItems, List.forall_mem_cons]
  refine ⟨rfl, rfl, rfl, rateItem_eq c w, rfl, rfl, rfl, rfl, ?_, rfl, rfl, rfl, rfl, rfl, rfl, rfl, rfl, rfl,
    List.forall_mem_nil _⟩
  simp only [Items.writeValue, hb]

/-- A signed item takes a value in its range alone (R200). -/
theorem Items.writeValue_signed (c : Items) (w : Word) :
    ∀ x ∈ signedItems, c.writeValue x.1 w = (signedItem x.2.1 x.2.2.1 w).map (x.2.2.2 c) := by
  simp only [signedItems, List.forall_mem_cons]
  exact ⟨rfl, rfl, rfl, rfl, rfl, rfl, List.forall_mem_nil _⟩

/-- A marker slot item takes a slot (R200). -/
theorem Items.writeSlot_slotItem (c : Items) (m : MarkerSlot) : ∀ x ∈ slotItems, c.writeSlot x.1 m = some (x.2 c m) := by
  simp only [slotItems, List.forall_mem_cons]
  exact ⟨rfl, rfl, rfl, rfl, List.forall_mem_nil _⟩

/-- The items of one value are 1 to 24 (R200). -/
theorem Items.writeValue_of_not_mem (c : Items) (w : Word) {item : Nat} (h : item = 0 ∨ 24 < item) :
    c.writeValue item w = none := by
  unfold Items.writeValue
  split <;> first | rfl | omega

/-- The items of a slot are 25 to 28 (R200). -/
theorem Items.writeSlot_of_not_mem (c : Items) (m : MarkerSlot) {item : Nat} (h : item < 25 ∨ 28 < item) :
    c.writeSlot item m = none := by
  unfold Items.writeSlot
  split <;> first | rfl | omega

theorem markerAction?_of_mem {n : Nat} {x : MarkerAction} (h : (n, x) ∈ actionWords) {w : Word} (hw : w.toNat = n) :
    markerAction? w = some x := by
  unfold markerAction?
  rw [hw]
  simp only [actionWords, List.mem_cons, Prod.mk.injEq, List.not_mem_nil, or_false] at h
  rcases h with ⟨rfl, rfl⟩ | ⟨rfl, rfl⟩ | ⟨rfl, rfl⟩ <;> rfl

theorem markerAction?_of_not_mem {w : Word} (h : w.toNat = 0 ∨ 3 < w.toNat) : markerAction? w = none := by
  unfold markerAction?
  split <;> first | rfl | omega

theorem State.writeConfig_exec_some (h : s.takesCommands) (hs : s.run.state = .offline) {args : List Word} {c : Items}
    (hl : args.length = 2 ∨ args.length = 7) (hw : s.items.write (argAt args 0).toNat args.tail = some c) :
    exec (.writeConfig tag args) s = .next ((s.withItems c).replied 2 tag args.length .ok []) := by
  show Host.Outcome.next (s.command 2 tag args (State.writeConfig args)) = _
  rw [State.command_eq h, State.writeConfig, if_neg (by omega), State.inProgress_run, if_neg (not_not.mpr hs),
    State.inProgress_items, hw]
  rfl

theorem State.writeConfig_exec_none (h : s.takesCommands) (hs : s.run.state = .offline) {args : List Word}
    (hl : args.length = 2 ∨ args.length = 7) (hw : s.items.write (argAt args 0).toNat args.tail = none) :
    exec (.writeConfig tag args) s = .next (s.replied 2 tag args.length .invalid [argAt args 0]) := by
  show Host.Outcome.next (s.command 2 tag args (State.writeConfig args)) = _
  rw [State.command_eq h, State.writeConfig, if_neg (by omega), State.inProgress_run, if_neg (not_not.mpr hs),
    State.inProgress_items, hw]
  rfl

/-- The item word of a listed item reads as its number. -/
theorem itemWord_toNat {item : Nat} (h : item < 4294967296) : (BitVec.ofNat 32 item).toNat = item := by
  rw [BitVec.toNat_ofNat]; exact Nat.mod_eq_of_lt h

theorem State.writeConfig_unsigned (h : s.takesCommands) (hs : s.run.state = .offline) {item lo hi : Nat}
    {set : Items → Nat → Items} (hm : (item, lo, hi, set) ∈ unsignedItems) (v : Word) :
    (lo ≤ v.toNat → v.toNat ≤ hi → exec (.writeConfig tag [BitVec.ofNat 32 item, v]) s =
      .next ((s.withItems (set s.items v.toNat)).replied 2 tag 2 .ok [])) ∧
    (v.toNat < lo ∨ hi < v.toNat → exec (.writeConfig tag [BitVec.ofNat 32 item, v]) s =
      .next (s.replied 2 tag 2 .invalid [BitVec.ofNat 32 item])) := by
  have hi' : (BitVec.ofNat 32 item).toNat = item :=
    itemWord_toNat ((by decide : ∀ x ∈ unsignedItems, x.1 < 4294967296) _ hm)
  have hw : s.items.write (argAt [BitVec.ofNat 32 item, v] 0).toNat [v] = (unsignedItem lo hi v).map (set s.items) := by
    show s.items.writeValue (BitVec.ofNat 32 item).toNat v = _
    rw [hi', s.items.writeValue_unsigned v _ hm]
  refine ⟨fun h1 h2 => ?_, fun h1 => ?_⟩
  · refine State.writeConfig_exec_some h hs (.inl rfl) (hw.trans ?_)
    rw [unsignedItem_of_mem h1 h2]; rfl
  · refine State.writeConfig_exec_none h hs (.inl rfl) (hw.trans ?_)
    rw [unsignedItem_of_not_mem h1]; rfl

theorem State.writeConfig_signed (h : s.takesCommands) (hs : s.run.state = .offline) {item : Nat} {lo hi : Int}
    {set : Items → Int → Items} (hm : (item, lo, hi, set) ∈ signedItems) (v : Word) :
    (lo ≤ v.toInt → v.toInt ≤ hi → exec (.writeConfig tag [BitVec.ofNat 32 item, v]) s =
      .next ((s.withItems (set s.items v.toInt)).replied 2 tag 2 .ok [])) ∧
    (v.toInt < lo ∨ hi < v.toInt → exec (.writeConfig tag [BitVec.ofNat 32 item, v]) s =
      .next (s.replied 2 tag 2 .invalid [BitVec.ofNat 32 item])) := by
  have hi' : (BitVec.ofNat 32 item).toNat = item :=
    itemWord_toNat ((by decide : ∀ x ∈ signedItems, x.1 < 4294967296) _ hm)
  have hw : s.items.write (argAt [BitVec.ofNat 32 item, v] 0).toNat [v] = (signedItem lo hi v).map (set s.items) := by
    show s.items.writeValue (BitVec.ofNat 32 item).toNat v = _
    rw [hi', s.items.writeValue_signed v _ hm]
  refine ⟨fun h1 h2 => ?_, fun h1 => ?_⟩
  · refine State.writeConfig_exec_some h hs (.inl rfl) (hw.trans ?_)
    rw [signedItem_of_mem h1 h2]; rfl
  · refine State.writeConfig_exec_none h hs (.inl rfl) (hw.trans ?_)
    rw [signedItem_of_not_mem h1]; rfl

/-- A word that is at most 1 is told from 0 by its number. -/
theorem word_eq_one (w : Word) : (w == 1) = decide (w.toNat = 1) := by
  rw [Bool.eq_iff_iff, beq_iff_eq, decide_eq_true_iff]
  exact ⟨fun h => h ▸ rfl, fun h => BitVec.eq_of_toNat_eq h⟩

/-- Six words in their ranges make a slot (R200). -/
theorem markerSlot?_of_mem {n : Nat} {x : MarkerAction} {e a kt tm kr rm : Word} (hx : (n, x) ∈ actionWords) (ha : a.toNat = n)
    (h1 : e.toNat ≤ 1) (h2 : kt.toNat ≤ 65535) (h3 : tm.toNat ≤ 65535) (h4 : kr.toNat ≤ 65535) (h5 : rm.toNat ≤ 65535) :
    markerSlot? [e, a, kt, tm, kr, rm] = some
      { enable := decide (e.toNat = 1), action := x, keyTag := BitVec.ofNat 16 kt.toNat, tagMask := BitVec.ofNat 16 tm.toNat,
        keyRepeat := BitVec.ofNat 16 kr.toNat, repeatMask := BitVec.ofNat 16 rm.toNat } := by
  simp [markerSlot?, inRange, h1, h2, h3, h4, h5, markerAction?_of_mem hx ha, BitVec.ofNat_toNat]
  exact word_eq_one e

/-- A word out of its range makes no slot (R200). -/
theorem markerSlot?_of_not_mem {e a kt tm kr rm : Word} (h : 1 < e.toNat ∨ a.toNat = 0 ∨ 3 < a.toNat ∨ 65535 < kt.toNat ∨
    65535 < tm.toNat ∨ 65535 < kr.toNat ∨ 65535 < rm.toNat) : markerSlot? [e, a, kt, tm, kr, rm] = none := by
  simp only [markerSlot?]
  split
  · rename_i hr
    simp only [inRange, Bool.and_eq_true, decide_eq_true_iff] at hr
    rw [markerAction?_of_not_mem (by omega)]
    rfl
  · rfl

theorem State.writeConfig_slot (h : s.takesCommands) (hs : s.run.state = .offline) {item : Nat}
    {set : Items → MarkerSlot → Items} (hm : (item, set) ∈ slotItems) (e a kt tm kr rm : Word) :
    (∀ n x, (n, x) ∈ actionWords → a.toNat = n → e.toNat ≤ 1 → kt.toNat ≤ 65535 → tm.toNat ≤ 65535 → kr.toNat ≤ 65535 →
      rm.toNat ≤ 65535 → exec (.writeConfig tag [BitVec.ofNat 32 item, e, a, kt, tm, kr, rm]) s =
        .next ((s.withItems (set s.items
          { enable := decide (e.toNat = 1), action := x, keyTag := BitVec.ofNat 16 kt.toNat
            tagMask := BitVec.ofNat 16 tm.toNat, keyRepeat := BitVec.ofNat 16 kr.toNat
            repeatMask := BitVec.ofNat 16 rm.toNat })).replied 2 tag 7 .ok [])) ∧
    ((1 < e.toNat ∨ a.toNat = 0 ∨ 3 < a.toNat ∨ 65535 < kt.toNat ∨ 65535 < tm.toNat ∨ 65535 < kr.toNat ∨ 65535 < rm.toNat) →
      exec (.writeConfig tag [BitVec.ofNat 32 item, e, a, kt, tm, kr, rm]) s =
        .next (s.replied 2 tag 7 .invalid [BitVec.ofNat 32 item])) := by
  have hi' : (BitVec.ofNat 32 item).toNat = item :=
    itemWord_toNat ((by decide : ∀ x ∈ slotItems, x.1 < 4294967296) _ hm)
  have hw : s.items.write (argAt [BitVec.ofNat 32 item, e, a, kt, tm, kr, rm] 0).toNat [e, a, kt, tm, kr, rm] =
      (markerSlot? [e, a, kt, tm, kr, rm]).bind (s.items.writeSlot item) := by
    show (markerSlot? _).bind (s.items.writeSlot (BitVec.ofNat 32 item).toNat) = _
    rw [hi']
  refine ⟨fun n x hx ha h1 h2 h3 h4 h5 => ?_, fun h1 => ?_⟩
  · refine State.writeConfig_exec_some h hs (.inr rfl) (hw.trans ?_)
    rw [markerSlot?_of_mem hx ha h1 h2 h3 h4 h5]
    exact s.items.writeSlot_slotItem _ _ hm
  · refine State.writeConfig_exec_none h hs (.inr rfl) (hw.trans ?_)
    rw [markerSlot?_of_not_mem h1]; rfl

/-- An item that has no such number of values is refused (R200). -/
theorem State.writeConfig_item (h : s.takesCommands) (hs : s.run.state = .offline) (item : Word) :
    ((item.toNat = 0 ∨ 24 < item.toNat) → ∀ v : Word,
      exec (.writeConfig tag [item, v]) s = .next (s.replied 2 tag 2 .invalid [item])) ∧
    ((item.toNat < 25 ∨ 28 < item.toNat) → ∀ a b c d e f : Word,
      exec (.writeConfig tag [item, a, b, c, d, e, f]) s = .next (s.replied 2 tag 7 .invalid [item])) := by
  refine ⟨fun hi v => ?_, fun hi a b c d e f => ?_⟩
  · exact State.writeConfig_exec_none h hs (.inl rfl) (s.items.writeValue_of_not_mem v hi)
  · refine State.writeConfig_exec_none h hs (.inr rfl) ?_
    show (markerSlot? [a, b, c, d, e, f]).bind (s.items.writeSlot item.toNat) = none
    cases markerSlot? [a, b, c, d, e, f] with
    | none => rfl
    | some m => exact s.items.writeSlot_of_not_mem m hi

theorem State.writeConfig_count (h : s.takesCommands) {args : List Word} (h2 : args.length ≠ 2) (h7 : args.length ≠ 7) :
    exec (.writeConfig tag args) s = .next (s.replied 2 tag args.length .invalid [0]) := by
  show Host.Outcome.next (s.command 2 tag args (State.writeConfig args)) = _
  rw [State.command_eq h, State.writeConfig, if_pos ⟨h2, h7⟩]
  rfl

theorem State.writeConfig_online (h : s.takesCommands) (hs : s.run.state ≠ .offline) {args : List Word}
    (hl : args.length = 2 ∨ args.length = 7) :
    exec (.writeConfig tag args) s = .next (s.replied 2 tag args.length .refusedState []) := by
  show Host.Outcome.next (s.command 2 tag args (State.writeConfig args)) = _
  rw [State.command_eq h, State.writeConfig, if_neg (by omega), if_pos (show (s.inProgress 2 tag _).run.state ≠ _ from hs)]
  rfl

/-! ### GO ONLINE (R201) -/

/-- GO ONLINE taken in OFFLINE. -/
theorem State.goOnline_exec (h : s.takesCommands) (hs : s.run.state = .offline) :
    exec (.goOnline tag []) s = .next (s.inProgress 3 tag 0).tryOnline.settle := by
  show Host.Outcome.next (s.command 3 tag [] (withCount 0 [] (inStates [.offline] State.tryOnline))) = _
  rw [State.command_eq h, withCount_of_eq (List.length_nil), inStates_of_mem (by rw [State.inProgress_run, hs]; decide)]
  rfl

theorem State.goOnline_fault (h : s.takesCommands) (hs : s.run.state = .offline) {n : Nat} (hf : s.items.fault? = some n) :
    exec (.goOnline tag []) s = .next (s.replied 3 tag 0 .invalid [word n]) := by
  rw [State.goOnline_exec h hs, State.tryOnline, State.inProgress_items, hf]
  rfl

theorem stationOf?_stationNumber (j : Station) : stationOf? (stationNumber j) = some j := by
  have := j.isLt
  unfold stationOf? stationNumber
  rw [dif_pos (by omega)]
  rfl

theorem stationNumber_inj {j k : Station} (h : stationNumber j = stationNumber k) : j = k := by
  unfold stationNumber at h
  exact Fin.ext (by omega)

/-- The own coefficients at 0 (R26). -/
theorem State.clearOwnCoefficients_of {own : Station} (h : s.ownNumber = stationNumber own) : s.clearOwnCoefficients =
    { s with drive := { s.drive with active := put s.drive.active own 0, pendingBank := put s.drive.pendingBank own 0 } } := by
  rw [State.clearOwnCoefficients, h, stationOf?_stationNumber]

/-- A change of every peer table entry, one after the other, is the change of each (R137, R150). -/
theorem State.onPeers_get (f : Station → Peer → Peer) (l : List Station) (hl : l.Nodup) (s : State) :
    ∃ v, l.foldl (fun t j => t.onPeer j (f j)) s = { s with peers := v } ∧
      ∀ j, v.get j = if j ∈ l then f j (s.peer j) else s.peer j := by
  induction l generalizing s with
  | nil => exact ⟨s.peers, rfl, fun j => by simp [State.peer]⟩
  | cons a l ih =>
    obtain ⟨ha, hl⟩ := List.nodup_cons.mp hl
    obtain ⟨v, hv, hg⟩ := ih hl (s.onPeer a (f a))
    refine ⟨v, hv, fun j => ?_⟩
    rw [hg j]
    by_cases hj : j = a
    · subst hj; simp [ha]
    · simp [hj]

/-- The roster enters every peer table entry (R137). -/
theorem State.takeRoster_get (s : State) : ∃ v, s.takeRoster = { s with peers := v } ∧
    ∀ j, v.get j = { s.peer j with expected := s.items.roster.getLsbD j.val } := by
  obtain ⟨v, hv, hg⟩ := State.onPeers_get (fun j p => { p with expected := s.items.roster.getLsbD j.val }) stations
    (by decide) s
  refine ⟨v, hv, fun j => ?_⟩
  rw [hg j, if_pos (by rw [stations_eq]; exact List.mem_finRange j)]

/-- A posting touches the events of the port and a counter alone. -/
theorem State.post_port (k : EventKind) (a b : Word) : ∃ e c, (s.post k a b).port = { s.port with events := e, counters := c } := by
  rcases s.post_cases k a b with ⟨-, h⟩ | ⟨-, h⟩
  · rw [h]; exact ⟨_, s.port.counters, rfl⟩
  · rw [h]; exact ⟨s.port.events, _, rfl⟩

@[simp] theorem State.changeState_items (r : RunState) : (s.changeState r).items = s.items :=
  State.items_of_steady (State.steady_of_quiet (s.changeState_quiet r))

@[simp] theorem State.changeState_reply (r : RunState) : (s.changeState r).port.reply = s.port.reply := by
  rw [State.changeState_port]
  obtain ⟨e, c, h⟩ := s.post_port .runState (word r.code) (word s.run.state.code)
  rw [h]

/-- A change of the run state touches the run controller, the events and a counter alone. -/
theorem State.changeState_frame (r : RunState) : ∃ e c, s.changeState r =
    { s with run := (s.changeState r).run, port := { s.port with events := e, counters := c } } := by
  obtain ⟨e, c, h⟩ := s.post_port .runState (word r.code) (word s.run.state.code)
  refine ⟨e, c, ?_⟩
  rw [← h]
  rcases s.post_cases .runState (word r.code) (word s.run.state.code) with ⟨-, h⟩ | ⟨-, h⟩
  · simp only [State.changeState, h]
  · simp only [State.changeState, h]; rfl

/-- What GO ONLINE leaves (R72): the change to ASSEMBLY with the first presentation, the own coefficients at 0, the rate, the
roster, and the shape load requested. -/
theorem State.goOnline_of {own : Station} (h : s.items.station = stationNumber own) : ∃ v e c,
    (∀ j, v.get j = { s.peer j with expected := s.items.roster.getLsbD j.val }) ∧
    s.goOnline = { s with
      run := (s.changeState .assembly).run
      drive := { s.drive.goOnline s.items with
        active := put s.drive.active own 0, pendingBank := put s.drive.pendingBank own 0 }
      time := { s.time with rate := s.items.rate, trim := 0 }
      peers := v
      sched := { s.sched with burst := some (.shape 0) }
      arb := { s.arb with serving := s.arb.serving.or (some .prefetch) }
      port := { s.port with events := e, counters := c } } := by
  obtain ⟨e, c, hc⟩ := s.changeState_frame .assembly
  rw [State.goOnline_eq, hc]
  generalize (s.changeState .assembly).run = r
  have hp : ∀ u : State, u.items = s.items → u.presented.clearOwnCoefficients = { u with drive := { u.drive.goOnline u.items with
      active := put u.drive.active own 0, pendingBank := put u.drive.pendingBank own 0 } } := fun u hu =>
    State.clearOwnCoefficients_of ((congrArg Items.station (show u.presented.items = s.items from hu)).trans h)
  rw [hp]
  swap
  · rfl
  obtain ⟨v, hv, hg⟩ := State.takeRoster_get (State.takeRate { State.presented { s with
    run := r, port := { s.port with events := e, counters := c } } with
      drive := { s.drive.goOnline s.items with
        active := put s.drive.active own 0, pendingBank := put s.drive.pendingBank own 0 } })
  exact ⟨v, e, c, hg, congrArg (State.requestBurst (.shape 0)) hv⟩

/-- With an own number that the roster leaves out, the checks of domain and ranges are left (R201). -/
theorem Items.fault?_numbered {c : Items} {own : Station} (h1 : c.station = stationNumber own)
    (h2 : c.roster.getLsbD own.val = false) : c.fault? =
      if c.domain = 0 then some 3 else if c.cmdMax ≤ c.cmdMin then some 10 else if c.fbMax ≤ c.fbMin then some 14 else none := by
  have h : c.station - 1 = own.val := by rw [h1]; rfl
  rw [Items.fault?, if_neg (by rw [h1]; exact Nat.succ_ne_zero _), h, if_neg (by simp only [h2]; decide)]

theorem State.goOnline_passed (h : s.takesCommands) (hs : s.run.state = .offline) {own : Station}
    (h1 : s.items.station = stationNumber own) (h2 : s.items.roster.getLsbD own.val = false) (h3 : s.items.domain ≠ 0)
    (h4 : s.items.cmdMin < s.items.cmdMax) (h5 : s.items.fbMin < s.items.fbMax) :
    ∃ t, exec (.goOnline tag []) s = .next t ∧ t.hasReply 3 tag .ok [] ∧ t.run.state = .assembly ∧ t.run.assembly = 0 ∧
      t.run.trip = s.run.trip ∧
      t.drive.prev = clamp s.items.bias (s.items.cmdMin * 256) (s.items.cmdMax * 256) ∧ t.drive.residual = 0 ∧
      t.drive.code = (t.drive.prev + 128) / 256 ∧ t.drive.strobes = s.drive.strobes + 1 ∧
      t.drive.level = s.drive.level ∧ t.drive.apply = s.drive.apply ∧
      (∀ j : Station, t.drive.active.get j = (if j = own then 0 else s.drive.active.get j) ∧
        t.drive.pendingBank.get j = (if j = own then 0 else s.drive.pendingBank.get j) ∧
        t.peer j = { s.peer j with expected := s.items.roster.getLsbD j.val }) ∧
      t.time = { s.time with rate := s.items.rate, trim := 0 } ∧ t.sched = { s.sched with burst := some (.shape 0) } ∧
      t.arb.serving = (if s.arb.serving = none then some .prefetch else s.arb.serving) ∧ t.store = s.store ∧
      t.port.items = s.port.items := by
  have hput : ∀ (w : Vector Int 16) (j : Station), (put w own 0).get j = if j = own then 0 else w.get j := by
    intro w j
    by_cases hj : j = own
    · subst hj; simp
    · simp [hj]
  obtain ⟨v, e, c, hg, ht⟩ := State.goOnline_of (s := s.inProgress 3 tag 0) h1
  refine ⟨_, State.goOnline_exec h hs, ?_⟩
  rw [State.tryOnline, State.inProgress_items, Items.fault?_numbered h1 h2, if_neg h3, if_neg (Int.not_le.mpr h4),
    if_neg (Int.not_le.mpr h5)]
  dsimp only
  rw [ht]
  refine ⟨⟨rfl, rfl⟩, rfl, rfl, ?_, rfl, rfl, rfl, rfl, rfl, rfl, fun j => ⟨hput _ j, hput _ j, hg j⟩, rfl, rfl, ?_, rfl, rfl⟩
  · exact (State.changeState_trip _ _).trans rfl
  · show s.arb.serving.or (some .prefetch) = _
    cases s.arb.serving <;> rfl

/-- Settles O49: each item by its row of the table, and GO ONLINE by its checks in turn. -/
theorem configurationAndGoOnline : Obligations.ConfigurationAndGoOnline := by
  intro s tag h
  refine ⟨fun hs => ⟨fun _ _ _ _ hm v => State.writeConfig_unsigned h hs hm v,
      fun _ _ _ _ hm v => State.writeConfig_signed h hs hm v, fun _ _ hm => State.writeConfig_slot h hs hm,
      fun item hi v => (State.writeConfig_item h hs item).1 hi v, fun item hi => (State.writeConfig_item h hs item).2 hi⟩,
    fun _ h2 h7 => State.writeConfig_count h h2 h7, fun hs _ hl => State.writeConfig_online h hs hl, fun hs => ?_,
    fun hs h1 => ?_, fun hs own h1 => ⟨fun h2 => ?_, fun h2 => ⟨fun h3 => ?_, fun h3 h4 => ?_, fun h3 h4 h5 => ?_⟩⟩,
    fun hs _ h1 h2 h3 h4 h5 => State.goOnline_passed h hs h1 h2 h3 h4 h5⟩
  · show Host.Outcome.next (s.command 3 tag [] (withCount 0 [] (inStates [.offline] State.tryOnline))) = _
    rw [State.command_eq h, withCount_of_eq (List.length_nil), inStates_of_not_mem (by simpa using hs)]
    rfl
  · exact State.goOnline_fault h hs (by simp [Items.fault?, h1])
  · refine State.goOnline_fault h hs ?_
    rw [Items.fault?, if_neg (by rw [h1]; exact Nat.succ_ne_zero _), show s.items.station - 1 = own.val by rw [h1]; rfl, if_pos h2]
  · exact State.goOnline_fault h hs (by rw [Items.fault?_numbered h1 h2, if_pos h3])
  · exact State.goOnline_fault h hs (by rw [Items.fault?_numbered h1 h2, if_neg h3, if_pos h4])
  · exact State.goOnline_fault h hs
      (by rw [Items.fault?_numbered h1 h2, if_neg h3, if_neg (Int.not_le.mpr h4), if_pos h5])

end Sys2Proof.Machine

namespace Sys2Proof.Machine

variable {A : Order → Prop} {s t : State} {q : StopRequest}

/-! ### What every move leaves -/

/-- The counters of the drive unit and the reply. -/
def State.outputCounts (s : State) : Nat × Nat × Nat × Option Reply :=
  (s.counter .clip, s.counter .slew, s.counter .underrun, s.port.reply)

theorem State.outputCounts_of_tally (h : t.tally = s.tally) : t.outputCounts = s.outputCounts := by
  simp only [State.outputCounts, State.counter_of_tally h (by decide : Counter.clip ∈ tallied),
    State.counter_of_tally h (by decide : Counter.slew ∈ tallied),
    State.counter_of_tally h (by decide : Counter.underrun ∈ tallied), State.reply_of_tally h]

/-- A posting leaves the counters of the drive unit and the reply. -/
theorem State.post_outputCounts (k : EventKind) (a b : Word) : (s.post k a b).outputCounts = s.outputCounts :=
  State.outputCounts_of_tally (s.post_tally k a b)

/-- Another counter raised leaves those of the drive unit and the reply. -/
theorem State.bump_outputCounts {c : Counter} (h : c ∈ [Counter.ordersApplied, .ordersInapplicable, .countdownAbort]) :
    (s.bump c).outputCounts = s.outputCounts := by
  have hc : ∀ d ∈ [Counter.clip, .slew, .underrun], (s.bump c).counter d = s.counter d := fun d hd =>
    s.count_counter_other c d 1 (by revert d c; decide)
  exact Prod.ext (hc _ (by decide)) (Prod.ext (hc _ (by decide)) (Prod.ext (hc _ (by decide)) rfl))

/-- No move touches the counters of the drive unit or the reply. -/
theorem Move.keeps_outputCounts (m : Move A s t) : t.outputCounts = s.outputCounts := by
  cases m with
  | still e => exact State.outputCounts_of_tally (State.gear_eq_iff.mp e).2.2.2.2.2.2.2.2.2
  | change _ r | order _ r => exact State.outputCounts_of_tally (s.changeState_tally r)
  | stop => exact State.outputCounts_of_tally (s.changeState_tally _)
  | trip _ q =>
    obtain ⟨-, -, -, -, -, -, -, -, -, h⟩ := s.enterTripped_fields q
    exact State.outputCounts_of_tally h
  | count _ i =>
    obtain ⟨-, -, -, -, -, -, -, -, -, h⟩ := s.enterCountdown_fields i
    exact State.outputCounts_of_tally h
  | abort => exact State.bump_outputCounts (by decide)
  | applied => exact State.post_outputCounts _ _ _ |>.trans (State.bump_outputCounts (by decide))
  | inapplicable => exact State.post_outputCounts _ _ _ |>.trans (State.bump_outputCounts (by decide))
  | bring | episode | descend | stepRun | stepLevel | file | offer | level | start | ramp | rampLevel => rfl

theorem Moves.keeps_outputCounts (h : Moves A s t) : t.outputCounts = s.outputCounts := by
  induction h with
  | refl => rfl
  | tail _ m ih => exact m.keeps_outputCounts.trans ih

theorem Moves.keeps_reply (h : Moves A s t) : t.port.reply = s.port.reply := congrArg (·.2.2.2) h.keeps_outputCounts

/-! ### The reply through an event that falls together with a STOP -/

/-- Whatever an event brings about, the reply of the command in progress stands. -/
theorem State.boundary_reply (first : List BoundaryAction) (s : State) : (s.boundary first).port.reply = s.port.reply := by
  have h : ∀ l : List BoundaryAction, (l.foldl State.act s.opened).port.reply = s.opened.port.reply := fun l =>
    foldl_keeps (fun t : State => t.port.reply) State.act (fun t a => (t.act_moves a).keeps_reply) l s.opened
  exact (h _).trans (s.opened_moves (A := noOrder)).keeps_reply

theorem State.instantFacts_reply (s : State) : s.instantFacts.1.port.reply = s.port.reply := by
  obtain ⟨v, c, x, e⟩ := s.instantReady.driveInstant_frame s.run.state s.consume.2
    (instantIndex s.consume.2 s.instantReady.sched.replay)
  rw [State.instantFacts_fst, e]
  show s.instantReady.port.reply = _
  obtain ⟨c, n, e⟩ := s.consume_frame
  rw [State.instantReady, State.serve_port, e]

theorem State.fetch_reply (s : State) : s.fetch.port.reply = s.port.reply :=
  (Moves.still (A := noOrder) s.fetch_gear).keeps_reply

theorem State.instant_reply (first : List InstantReport) (s : State) : (s.instant first).port.reply = s.port.reply := by
  have h : ∀ (u : State), (u.actInstant first).port.reply = u.port.reply := by
    intro u
    have h1 := ((u.instantFacts.1.reports_moves u.instantFacts.2 (orderedBy first instantReports)
      (A := fun _ => True) (fun _ _ => trivial)).keeps_reply).trans u.instantFacts_reply
    simp only [State.actInstant]
    split
    · exact (State.fetch_reply _).trans h1
    · exact h1
  unfold State.instant
  split
  · rfl
  · exact (h _).trans rfl

theorem State.happens_reply (e : Together) (s : State) : (s.happens e).port.reply = s.port.reply := by
  cases e with
  | boundary first => exact (State.boundary_reply first _).trans (s.instant_reply [])
  | instant first => exact s.instant_reply first
  | copy n => exact (s.takeWaiting_moves n).keeps_reply
  | servoReady level =>
    have h : (s.readyShown level).port.reply = s.port.reply := (Moves.still (A := noOrder) (s.readyShown_gear level)).keeps_reply
    show (s.setReady level).port.reply = _
    by_cases e : s.servo.ready = level
    · rw [s.setReady_of_eq e]
    · rw [s.setReady_of_ne e]
      split
      · exact (State.requestLocal_moves (A := noOrder) _ _ _).keeps_reply.trans h
      · exact (State.readyTest_moves (A := noOrder) _).keeps_reply.trans h
  | signalLost d =>
    show (s.loseSignal d).port.reply = _
    simp only [State.loseSignal]
    split
    · split
      · rfl
      · exact (State.sideDown_moves (A := noOrder) _ d 3).keeps_reply.trans rfl
    · rfl
  | frameCheckDown d =>
    show (s.failCheck d).port.reply = _
    unfold State.failCheck
    split
    · exact (State.badFrame_moves (A := noOrder) _ d).keeps_reply.trans rfl
    · rfl

end Sys2Proof.Machine

namespace Sys2Proof.Machine

variable {s t : State} {q : StopRequest} {tag : Byte}

/-! ### The requests of class S, by run state (R82 to R84, R87) -/

/-- The states in which a class S request begins the STOP descent (R83). -/
def RunState.stoppable (r : RunState) : Prop := r = .run ∨ r = .pausing ∨ r = .paused

theorem State.request_stoppable (hq : q.cause.isT = false) (h : s.run.state.stoppable) :
    s.request q = s.countFurther.enterStopping q := by
  unfold State.request
  rw [hq]
  rcases h with h | h | h <;> rw [h]

theorem State.request_countdown (hq : q.cause.isT = false) (h : s.run.state = .countdown) :
    s.request q = s.countFurther.cancelCountdown q := by
  unfold State.request
  rw [hq, h]

theorem State.request_counted (hq : q.cause.isT = false) (h : s.run.state = .stopping ∨ s.run.state = .stopped) :
    s.request q = s.countFurther.bump .stopsCounted := by
  unfold State.request
  rw [hq]
  rcases h with h | h <;> rw [h]

theorem State.request_noted (hq : q.cause.isT = false)
    (h : s.run.state = .assembly ∨ s.run.state = .standby ∨ s.run.state = .ready ∨ s.run.state = .tripped) :
    s.request q = s.countFurther.noteRequest q := by
  unfold State.request
  rw [hq]
  rcases h with h | h | h | h <;> rw [h]

/-- A class T request trips the node wherever it is not tripped or offline (R85). -/
theorem State.request_tripping (hq : q.cause.isT = true) (h : s.run.state ≠ .tripped) (h' : s.run.state ≠ .offline) :
    s.request q = s.countFurther.enterTripped q := by
  unfold State.request
  rw [hq]
  cases hs : s.run.state <;> simp_all

/-- The parts of State that a request counted, noted or cancelling a countdown leaves. -/
structure State.Aside (s t : State) : Prop where
  drive : t.drive = s.drive
  sched : t.sched = s.sched
  orders : t.orders = s.orders
  scratch : t.scratch = s.scratch
  peers : t.peers = s.peers
  servo : t.servo = s.servo
  store : t.store = s.store
  items : t.port.items = s.port.items
  time : t.time = s.time
  ring : t.ring = s.ring

theorem State.Aside.refl (s : State) : s.Aside s := ⟨rfl, rfl, rfl, rfl, rfl, rfl, rfl, rfl, rfl, rfl⟩

theorem State.Aside.trans {u : State} (h : s.Aside t) (g : t.Aside u) : s.Aside u :=
  ⟨g.1.trans h.1, g.2.trans h.2, g.3.trans h.3, g.4.trans h.4, g.5.trans h.5, g.6.trans h.6, g.7.trans h.7, g.8.trans h.8,
    g.9.trans h.9, g.10.trans h.10⟩

theorem State.post_aside (k : EventKind) (a b : Word) (s : State) : s.Aside (s.post k a b) := by
  rcases s.post_cases k a b with ⟨-, e⟩ | ⟨-, e⟩ <;> (rw [e]; exact ⟨rfl, rfl, rfl, rfl, rfl, rfl, rfl, rfl, rfl, rfl⟩)

theorem State.changeState_aside (r : RunState) (s : State) : s.Aside (s.changeState r) :=
  ⟨by simp, by simp, by simp, by simp, by simp, by simp, by simp, State.changeState_items r, by simp, by simp⟩

theorem State.bump_aside (c : Counter) (s : State) : s.Aside (s.bump c) := ⟨rfl, rfl, rfl, rfl, rfl, rfl, rfl, rfl, rfl, rfl⟩

theorem State.countFurther_aside (s : State) : s.Aside s.countFurther := ⟨rfl, rfl, rfl, rfl, rfl, rfl, rfl, rfl, rfl, rfl⟩

theorem State.taken_aside (q : StopRequest) (s : State) : s.Aside (s.taken q) := (s.bump_aside _).trans (State.post_aside _ _ _ _)

/-- What the READY test can do: nothing, or a change among READY, STANDBY and ASSEMBLY (R74, R75). -/
theorem State.readyTest_cases (s : State) : s.readyTest = s ∨
    (s.run.state = .standby ∧ s.readyTest = s.changeState .ready) ∨
    (s.run.state = .ready ∧ ∃ r, (r = .standby ∨ r = .assembly) ∧ s.readyTest = s.changeState r) := by
  unfold State.readyTest
  split
  case h_1 h =>
    split
    · exact .inr (.inl ⟨h, rfl⟩)
    · exact .inl rfl
  case h_2 h =>
    split
    · exact .inr (.inr ⟨h, _, .inr rfl, rfl⟩)
    · split
      · exact .inl rfl
      · exact .inr (.inr ⟨h, _, .inl rfl, rfl⟩)
  case h_3 => exact .inl rfl

theorem State.readyTest_aside (s : State) : s.Aside s.readyTest := by
  rcases s.readyTest_cases with e | ⟨-, e⟩ | ⟨-, r, -, e⟩ <;> rw [e]
  · exact .refl s
  · exact s.changeState_aside _
  · exact s.changeState_aside _

/-- What a return to READY leaves of the run controller (R78, R84). -/
theorem State.returnToReady_run (h : s.run.state = .countdown) :
    (s.returnToReady.run.state = .ready ∨ s.returnToReady.run.state = .standby ∨ s.returnToReady.run.state = .assembly) ∧
    s.returnToReady.run.countdown = none ∧ s.returnToReady.run.stopField = s.run.stopField ∧
    s.returnToReady.run.record = s.run.record := by
  have hc : (s.changeState .ready).run.countdown = none := by simp [h]
  unfold State.returnToReady
  rcases (s.changeState .ready).readyTest_cases with e | ⟨-, e⟩ | ⟨-, r, hr, e⟩ <;> rw [e]
  · exact ⟨.inl rfl, hc, by simp, by simp⟩
  · exact ⟨.inl rfl, by simp [h], by simp, by simp⟩
  · refine ⟨?_, by simp [h], by simp, by simp⟩
    rcases hr with rfl | rfl
    · exact .inr (.inl rfl)
    · exact .inr (.inr rfl)

theorem State.returnToReady_aside (s : State) : s.Aside s.returnToReady :=
  (s.changeState_aside _).trans (State.readyTest_aside _)

/-- A class S request in COUNTDOWN cancels it (R84). -/
theorem State.cancelled (hq : q.cause.isT = false) (h : s.run.state = .countdown) :
    s.Aside (s.request q) ∧ ((s.request q).run.state = .ready ∨ (s.request q).run.state = .standby ∨
      (s.request q).run.state = .assembly) ∧ (s.request q).run.countdown = none ∧
    (s.request q).run.stopField = s.run.stopField := by
  have ht : (s.countFurther.taken q).run.state = .countdown := by simp [State.taken, State.countFurther, h]
  obtain ⟨h1, h2, h3, -⟩ := State.returnToReady_run ht
  rw [State.request_countdown hq h, State.cancelCountdown]
  refine ⟨(s.countFurther_aside.trans (State.taken_aside q _)).trans (State.returnToReady_aside _), h1, h2, h3.trans ?_⟩
  simp [State.taken, State.countFurther]

/-- A class S request counted (R82). -/
theorem State.counted (hq : q.cause.isT = false) (h : s.run.state = .stopping ∨ s.run.state = .stopped) :
    s.Aside (s.request q) ∧ (s.request q).run.state = s.run.state ∧ (s.request q).run.stopField = s.run.stopField ∧
    (s.request q).run.trip = s.run.trip ∧ (s.request q).run.countdown = s.run.countdown ∧
    (s.request q).counter .stopsCounted = saturate32 (s.counter .stopsCounted) 1 := by
  rw [State.request_counted hq h]
  exact ⟨s.countFurther_aside.trans (State.bump_aside _ _), rfl, rfl, rfl, rfl, State.bump_counter _ _⟩

/-- The request noted (R87). -/
theorem State.noteRequest_facts (q : StopRequest) (s : State) : s.Aside (s.noteRequest q) ∧
    (s.noteRequest q).run.state = s.run.state ∧ (s.noteRequest q).run.stopField = s.run.stopField ∧
    (s.noteRequest q).run.trip = s.run.trip ∧ (s.noteRequest q).counter .stopsNoted = saturate32 (s.counter .stopsNoted) 1 := by
  have hb := s.bump_aside .stopsNoted
  have hp := hb.trans (State.post_aside .stopNoted q.detail1 q.detail2 _)
  have hc : ((s.bump .stopsNoted).post .stopNoted q.detail1 q.detail2).counter .stopsNoted =
      saturate32 (s.counter .stopsNoted) 1 :=
    (State.post_counter _ _ _ _ (by decide)).trans (s.bump_counter _)
  simp only [State.noteRequest]
  split
  · exact ⟨hp, by simp, by simp, by simp, hc⟩
  · split
    · exact ⟨hb, rfl, rfl, rfl, s.bump_counter _⟩
    · exact ⟨⟨hp.1, hp.2, hp.3, hp.4, hp.5, hp.6, hp.7, hp.8, hp.9, hp.10⟩, by simp, by simp, by simp, hc⟩

/-- A class S request noted (R87). -/
theorem State.noted (hq : q.cause.isT = false)
    (h : s.run.state = .assembly ∨ s.run.state = .standby ∨ s.run.state = .ready ∨ s.run.state = .tripped) :
    s.Aside (s.request q) ∧ (s.request q).run.state = s.run.state ∧ (s.request q).run.stopField = s.run.stopField ∧
    (s.request q).run.trip = s.run.trip ∧ (s.request q).counter .stopsNoted = saturate32 (s.counter .stopsNoted) 1 := by
  rw [State.request_noted hq h]
  obtain ⟨h1, h2⟩ := s.countFurther.noteRequest_facts q
  exact ⟨s.countFurther_aside.trans h1, h2⟩

/-- What stands when the STOP descent is about to begin (R83). -/
def State.stopBegun (q : StopRequest) (s : State) : State :=
  (((s.countFurther.taken q).latch q).setStopField q).changeState .stopping

theorem State.stopBegun_aside (q : StopRequest) (s : State) : s.Aside (s.stopBegun q) := by
  have h := s.countFurther_aside.trans (State.taken_aside q _)
  have g : s.Aside (((s.countFurther.taken q).latch q).setStopField q) :=
    ⟨h.1, h.2, h.3, h.4, h.5, h.6, h.7, h.8, h.9, h.10⟩
  exact g.trans (State.changeState_aside _ _)

theorem State.stopBegun_run (q : StopRequest) (s : State) : (s.stopBegun q).run.state = .stopping ∧
    (s.stopBegun q).run.stopField = some { origin := q.origin, reason := q.reason } :=
  ⟨rfl, by simp [State.stopBegun, State.setStopField]⟩

theorem State.request_begins (hq : q.cause.isT = false) (h : s.run.state.stoppable) :
    s.request q = (s.stopBegun q).installDescent.firstStep := State.request_stoppable hq h

/-- Away from the stepping of a boundary a class S request begins the descent with R as it stands (R23, R24, R83). -/
theorem State.stopped_of_rest (hq : q.cause.isT = false) (h : s.run.state.stoppable) (hx : s.scratch.stepped = none) :
    (s.request q).run.state = .stopping ∧
    (s.request q).run.stopField = some { origin := q.origin, reason := q.reason } ∧
    (s.request q).drive = { s.drive with runRamp := some .descent } ∧ (s.request q).sched = s.sched ∧
    (s.request q).orders = s.orders ∧ (s.request q).scratch = s.scratch ∧ (s.request q).peers = s.peers ∧
    (s.request q).store = s.store := by
  have ha := s.stopBegun_aside q
  obtain ⟨h1, h2⟩ := s.stopBegun_run q
  have hx' : (s.stopBegun q).scratch.stepped = none := by rw [ha.scratch, hx]
  have hf : (s.stopBegun q).installDescent.firstStep = (s.stopBegun q).installDescent := by
    rw [State.firstStep, if_neg (by simp [State.installDescent, hx'])]
  have hb : (s.stopBegun q).rampBase = s.drive.ramp := by rw [State.rampBase, hx', ← ha.drive]
  rw [State.request_begins hq h, hf]
  refine ⟨h1, h2, ?_, ha.sched, ha.orders, ha.scratch, ha.peers, ha.store⟩
  show { (s.stopBegun q).drive with ramp := (s.stopBegun q).rampBase, runRamp := some RunRamp.descent } = _
  rw [hb, ha.drive]

/-- What a report of the drive unit can change of the run controller (R25). -/
theorem State.takeReport_run (r : RampReport) (s : State) : (s.takeReport r).run.stopField = s.run.stopField ∧
    (s.takeReport r).run.trip = s.run.trip ∧
    ((s.takeReport r).run.state = s.run.state ∨ (s.run.state = .pausing ∧ (s.takeReport r).run.state = .paused) ∨
      (s.run.state = .stopping ∧ (s.takeReport r).run.state = .stopped)) := by
  have hw : ∀ u : State, u.rewind.run.state = u.run.state ∧ u.rewind.run.stopField = u.run.stopField ∧
      u.rewind.run.trip = u.run.trip := fun u => by
    obtain ⟨h1, h2, -, h3, -⟩ := State.gear_eq_iff.mp u.rewind_gear
    exact ⟨h1, h3, h2⟩
  cases r with
  | nothing => exact ⟨rfl, rfl, .inl rfl⟩
  | rampAtZero =>
    simp only [State.takeReport]
    split
    · exact ⟨by simp, by simp [State.changeState_trip], .inr (.inl ⟨‹_›, rfl⟩)⟩
    · exact ⟨rfl, rfl, .inl rfl⟩
  | descentAtZero =>
    simp only [State.takeReport]
    split
    · obtain ⟨h1, h2, h3⟩ := hw ((s.bring .rampEnd).changeState .stopped)
      exact ⟨h2.trans (by simp), h3.trans (by simp [State.changeState_trip]), .inr (.inr ⟨‹_›, h1⟩)⟩
    · exact ⟨rfl, rfl, .inl rfl⟩

/-- Wherever it falls, a class S request in RUN, PAUSING or PAUSED leaves the node STOPPING or STOPPED with its stop field (R83). -/
theorem State.stopped_of_stoppable (hq : q.cause.isT = false) (h : s.run.state.stoppable) :
    ((s.request q).run.state = .stopping ∨ (s.request q).run.state = .stopped) ∧
    (s.request q).run.stopField = some { origin := q.origin, reason := q.reason } := by
  obtain ⟨h1, h2⟩ := s.stopBegun_run q
  rw [State.request_begins hq h, State.firstStep]
  split
  · rw [State.stepRunRamp_eq]
    obtain ⟨g1, -, g2⟩ := (s.stopBegun q).installDescent.runStepped.takeReport_run
      ((s.stopBegun q).installDescent.drive.stepRun (s.stopBegun q).installDescent.items.stopStep).2
    refine ⟨?_, g1.trans h2⟩
    rcases g2 with g | ⟨g, -⟩ | ⟨-, g⟩
    · exact .inl (g.trans h1)
    · exact absurd (h1.symm.trans g) (by decide)
    · exact .inr g
  · exact ⟨.inl h1, h2⟩

end Sys2Proof.Machine

namespace Sys2Proof.Machine

variable {s t u : State} {tag : Byte}

/-! ### STOP (R89) -/

/-- A STOP in its run states is its owner's work. -/
theorem State.stop_exec (h : s.takesCommands) (hs : s.run.state = .countdown ∨ s.run.state.stoppable) (a : Option Together) :
    exec (.stop tag { words := [], ahead := a }) s = .next ((s.inProgress 15 tag 0).stopCommand a).settle := by
  show Host.Outcome.next (s.command 15 tag [] (withCount 0 [] (inStates _ (State.stopCommand a)))) = _
  rw [State.command_eq h, withCount_of_eq (List.length_nil), inStates_of_mem]
  · rfl
  · show s.run.state ∈ _
    rcases hs with hs | hs | hs | hs <;> simp [hs]

theorem State.stop_refused (h : s.takesCommands) (hs : s.run.state ∉ [RunState.countdown, .run, .pausing, .paused])
    (a : Option Together) :
    exec (.stop tag { words := [], ahead := a }) s = .next (s.replied 15 tag 0 .refusedState []) := by
  show Host.Outcome.next (s.command 15 tag [] (withCount 0 [] (inStates _ (State.stopCommand a)))) = _
  rw [State.command_eq h, withCount_of_eq (List.length_nil), inStates_of_not_mem]
  · rfl
  · exact hs

/-- The operator's request in a state with the reply pending is answered OK (R89). -/
theorem State.operator_hasReply (hu : u.port.reply = (s.inProgress 15 tag 0).port.reply) :
    ((u.requestLocal .operator u.ownNumber).finish .ok []).settle.hasReply 15 tag .ok [] :=
  State.finish_hasReply (r := { tag := tag, code := 15, status := .pending, words := [] })
    ((State.requestLocal_moves (A := noOrder) u _ _).keeps_reply.trans hu)

/-- The operator's request in each state that the event ahead of it left (R82 to R84, R87). -/
theorem State.operator_cases (u : State) {t : State}
    (ht : t = ((u.requestLocal .operator u.ownNumber).finish .ok []).settle) :
    (u.run.state = .stopping ∨ u.run.state = .stopped →
      t.run.state = u.run.state ∧ t.run.stopField = u.run.stopField ∧ t.drive = u.drive ∧ t.sched = u.sched ∧
      t.counter .stopsCounted = min 4294967295 (u.counter .stopsCounted + 1)) ∧
    (u.run.state = .assembly ∨ u.run.state = .standby ∨ u.run.state = .ready ∨ u.run.state = .tripped →
      t.run.state = u.run.state ∧ t.run.stopField = u.run.stopField ∧ t.drive = u.drive ∧ t.sched = u.sched ∧
      t.counter .stopsNoted = min 4294967295 (u.counter .stopsNoted + 1)) ∧
    (u.run.state = .countdown → t.run.countdown = none ∧ t.run.state ≠ .countdown) ∧
    (u.run.state = .run ∨ u.run.state = .pausing ∨ u.run.state = .paused →
      (t.run.state = .stopping ∨ t.run.state = .stopped) ∧
      t.run.stopField = some { origin := u.items.station, reason := 1 }) := by
  have hq : (u.localRequest .operator u.ownNumber).cause.isT = false := rfl
  subst ht
  refine ⟨fun h => ?_, fun h => ?_, fun h => ?_, fun h => ?_⟩
  · obtain ⟨ha, h1, h2, -, -, h3⟩ := State.counted hq h
    exact ⟨h1, h2, ha.drive, ha.sched, h3⟩
  · obtain ⟨ha, h1, h2, -, h3⟩ := State.noted hq h
    exact ⟨h1, h2, ha.drive, ha.sched, h3⟩
  · obtain ⟨-, h1, h2, -⟩ := State.cancelled hq h
    refine ⟨h2, fun e => ?_⟩
    rcases h1 with h1 | h1 | h1 <;> exact absurd (h1.symm.trans e) (by decide)
  · exact State.stopped_of_stoppable hq h

/-- Nothing but the taking of requests counts the noted ones. -/
theorem State.enterTripped_stopsNoted (q : StopRequest) (s : State) :
    (s.enterTripped q).counter .stopsNoted = s.counter .stopsNoted := by
  have hf : ∀ u : State, u.fetch.port = u.port := fun u => by
    unfold State.fetch
    split
    · rfl
    · split <;> rfl
  have hw : ∀ u : State, u.rewind.port = u.port := fun u => by
    unfold State.rewind
    split <;> exact hf _
  have ht : (s.taken q).counter .stopsNoted = s.counter .stopsNoted :=
    (State.post_counter _ _ _ _ (by decide)).trans (s.count_counter_other _ _ _ (by decide))
  have hc : ∀ u : State, u.port.counters = (s.taken q).port.counters →
      ((((u.setStopField q).changeState .tripped).freeze).setHold true).rewind.counter .stopsNoted = s.counter .stopsNoted := by
    intro u hu
    rw [State.counter, hw]
    refine (State.post_counter _ _ _ _ (by decide)).trans (Eq.trans ?_ ht)
    exact congrArg (fun v : Vector Nat 52 => v.get Counter.stopsNoted.place) hu
  simp only [State.enterTripped]
  split <;> exact hc _ rfl

/-- A loss of servo-ready in motion trips the node, and the STOP taken with it is noted (R62, R87, R89). -/
theorem State.stop_behind_servoLoss (hs : s.run.state = .countdown ∨ s.run.state.stoppable) (hr : s.servo.ready = true)
    {u t : State} (hu : u = s.setReady false) (ht : t = ((u.requestLocal .operator u.ownNumber).finish .ok []).settle) :
    t.run.state = .tripped ∧ t.run.trip = true ∧ t.run.stopField = some { origin := s.items.station, reason := 14 } ∧
      t.counter .stopsNoted = min 4294967295 (s.counter .stopsNoted + 1) := by
  have hrun : (s.readyShown false).run = s.run := by simp [State.readyShown]
  have hm : s.run.state.inMotion = true ∧ s.run.state ≠ .tripped ∧ s.run.state ≠ .offline := by
    rcases hs with hs | hs | hs | hs <;> rw [hs] <;> decide
  have hu' : u = (s.readyShown false).countFurther.enterTripped
      ((s.readyShown false).localRequest .servoNotReady (s.readyShown false).ownNumber) := by
    rw [hu, s.setReady_of_ne (by simp [hr]), hrun, hm.1]
    exact State.request_tripping rfl (by rw [hrun]; exact hm.2.1) (by rw [hrun]; exact hm.2.2)
  obtain ⟨h1, h2, -, h3, -⟩ := (s.readyShown false).countFurther.enterTripped_fields
    ((s.readyShown false).localRequest .servoNotReady (s.readyShown false).ownNumber)
  rw [← hu'] at h1 h2 h3
  obtain ⟨-, g1, g2, g3, g4⟩ := State.noted (q := u.localRequest .operator u.ownNumber) rfl (.inr (.inr (.inr h1)))
  have hn : u.counter .stopsNoted = s.counter .stopsNoted := by
    rw [hu', State.enterTripped_stopsNoted]
    exact State.post_counter _ _ _ _ (by decide)
  have hi : (s.readyShown false).ownNumber = s.items.station := congrArg Items.station (s.readyShown_items false)
  subst ht
  refine ⟨g1.trans h1, g3.trans h2, g2.trans (h3.trans (by rw [← hi]; rfl)), g4.trans (by rw [hn]; rfl)⟩

/-! ### CLEAR (R95, R96) -/

/-- CLEAR taken is its owner's work. -/
theorem State.clear_exec (h : s.takesCommands) :
    exec (.clear tag []) s = .next ((s.inProgress 16 tag 0).clearCommand).settle := by
  show Host.Outcome.next (s.command 16 tag [] (withCount 0 [] State.clearCommand)) = _
  rw [State.command_eq h, withCount_of_eq (List.length_nil)]
  rfl

theorem State.rosterComplete_of_peers (h : t.peers = s.peers) : t.rosterComplete = s.rosterComplete := by
  unfold State.rosterComplete State.peer
  rw [h]

/-- What a node that leaves STOPPED or TRIPPED passes to (R95, R96). -/
theorem State.leaveStop_facts (s : State) : s.Aside s.leaveStop ∧ s.leaveStop.run.stopField = s.run.stopField ∧
    s.leaveStop.run.record = s.run.record ∧
    (s.rosterComplete = true → (s.leaveStop.run.state = .standby ∨ s.leaveStop.run.state = .ready) ∧
      s.leaveStop.run.trip = false) ∧
    (s.rosterComplete = false → s.leaveStop.run.state = .assembly ∧ s.leaveStop.run.assembly = 0 ∧
      s.leaveStop.run.trip = s.run.trip) := by
  unfold State.leaveStop
  split
  · rename_i hc
    have ha := (s.changeState_aside .standby).trans (State.readyTest_aside _)
    unfold State.enterStandby
    refine ⟨ha, ?_⟩
    rcases (s.changeState .standby).readyTest_cases with e | ⟨-, e⟩ | ⟨h, -⟩
    · rw [e]
      exact ⟨by simp, by simp, fun _ => ⟨.inl rfl, rfl⟩, fun h => absurd (h.symm.trans hc) (by decide)⟩
    · rw [e]
      refine ⟨by simp, by simp, fun _ => ⟨.inr rfl, by simp [State.changeState_trip]⟩, fun h => absurd (h.symm.trans hc) (by decide)⟩
    · exact absurd h (by simp)
  · rename_i hc
    exact ⟨s.changeState_aside _, by simp, by simp, fun h => absurd h hc, fun _ => ⟨rfl, by simp, by simp [State.changeState_trip]⟩⟩

theorem State.leaveStop_reply (s : State) : s.leaveStop.port.reply = s.port.reply := by
  unfold State.leaveStop
  split
  · exact (State.readyTest_moves (A := noOrder) _).keeps_reply.trans (State.changeState_reply _)
  · exact State.changeState_reply _

/-- The reader fetches within the store port and the burst of the schedule unit alone (R34). -/
theorem State.fetch_frame (s : State) : ∃ b a, s.fetch = { s with sched := { s.sched with burst := b }, arb := a } := by
  unfold State.fetch
  split
  · exact ⟨s.sched.burst, s.arb, rfl⟩
  · split
    · exact ⟨_, _, rfl⟩
    · exact ⟨s.sched.burst, s.arb, rfl⟩

theorem State.clear_stopped (h : s.takesCommands) (hs : s.run.state = .stopped) :
    ∃ t, exec (.clear tag []) s = .next t ∧ t.hasReply 16 tag .ok [] ∧ t.run.stopField = none ∧ t.run.record = none ∧
      t.drive = s.drive ∧ t.sched = s.sched ∧
      (s.rosterComplete = true → (t.run.state = .standby ∨ t.run.state = .ready) ∧ t.run.trip = false) ∧
      (s.rosterComplete = false → t.run.state = .assembly ∧ t.run.assembly = 0 ∧ t.run.trip = s.run.trip) := by
  obtain ⟨ha, h1, h2, h3⟩ := (s.inProgress 16 tag 0).clearEpisode.leaveStop_facts
  refine ⟨_, State.clear_exec h, ?_⟩
  rw [State.clearCommand, State.inProgress_run, hs]
  exact ⟨State.finish_hasReply (r := { tag := tag, code := 16, status := .pending, words := [] }) (State.leaveStop_reply _),
    h1, h2, ha.drive, ha.sched, h3⟩

theorem State.clearConditions_iff (s : State) : s.clearConditions = true ↔
    s.servo.ready = true ∧ s.items.fbMin ≤ s.servo.latest.getD 0 ∧ s.servo.latest.getD 0 ≤ s.items.fbMax := by
  simp [State.clearConditions, inFeedbackRange]

theorem State.clear_tripped (h : s.takesCommands) (hs : s.run.state = .tripped) (hc : s.clearConditions = true) :
    ∃ t, exec (.clear tag []) s = .next t ∧ t.hasReply 16 tag .ok [] ∧ t.run.stopField = none ∧ t.run.record = none ∧
      t.drive = { s.drive with ramp := 0 } ∧ t.sched.hold = false ∧ t.sched.queue = s.sched.queue ∧
      t.sched.head = s.sched.head ∧
      (s.rosterComplete = true → (t.run.state = .standby ∨ t.run.state = .ready) ∧ t.run.trip = false) ∧
      (s.rosterComplete = false → t.run.state = .assembly ∧ t.run.assembly = 0 ∧ t.run.trip = s.run.trip) := by
  obtain ⟨b, a, hf⟩ := ((s.inProgress 16 tag 0).release.setHold false).fetch_frame
  have hl := ((s.inProgress 16 tag 0).release.setHold false).fetch.clearEpisode.leaveStop_facts
  have hy := ((s.inProgress 16 tag 0).release.setHold false).fetch.clearEpisode.leaveStop_reply
  refine ⟨_, State.clear_exec h, ?_⟩
  rw [State.clearCommand, State.inProgress_run, hs]
  dsimp only
  rw [State.clearTripped, if_pos (show (s.inProgress 16 tag 0).clearConditions = true from hc)]
  rw [hf] at hl hy ⊢
  obtain ⟨ha, h1, h2, h3⟩ := hl
  exact ⟨State.finish_hasReply (r := { tag := tag, code := 16, status := .pending, words := [] }) hy, h1, h2, ha.drive,
    (congrArg Sched.hold ha.sched).trans rfl, (congrArg Sched.queue ha.sched).trans rfl,
    (congrArg Sched.head ha.sched).trans rfl, h3⟩

/-- Settles O27: STOP by the state its request meets, CLEAR by the state it leaves. -/
theorem stopAndClear : Obligations.StopAndClear := by
  intro s tag h
  have hop : ∀ e : Together, ((s.inProgress 15 tag 0).happens e).port.reply = (s.inProgress 15 tag 0).port.reply :=
    fun e => State.happens_reply e _
  refine ⟨fun hs => ⟨_, State.stop_exec h (.inr hs) none, State.operator_hasReply rfl, ?_⟩,
    fun hs => ⟨_, State.stop_exec h (.inl hs) none, State.operator_hasReply rfl, ?_⟩,
    fun hs a => State.stop_refused h hs a,
    fun hs => ⟨fun e u hu => ⟨_, State.stop_exec h hs (some e), State.operator_hasReply (hop e), ?_⟩,
      fun hr => ⟨_, State.stop_exec h hs _, State.operator_hasReply (hop _), ?_⟩⟩,
    fun hs => State.clear_stopped h hs,
    fun hs hr h1 h2 => State.clear_tripped h hs (s.clearConditions_iff.mpr ⟨hr, h1, h2⟩),
    fun hs hc => ?_, fun h1 h2 => ?_⟩
  · obtain ⟨h1, h2, h3, h4, h5, -⟩ := State.stopped_of_rest (s := s.inProgress 15 tag 0)
      (q := (s.inProgress 15 tag 0).localRequest .operator s.ownNumber) rfl hs rfl
    exact ⟨h1, h2, h3, h4, h5⟩
  · obtain ⟨ha, h1, h2, h3⟩ := State.cancelled (s := s.inProgress 15 tag 0)
      (q := (s.inProgress 15 tag 0).localRequest .operator s.ownNumber) rfl hs
    exact ⟨h2, h1, h3, ha.drive, ha.orders⟩
  · subst hu; exact State.operator_cases _ rfl
  · exact State.stop_behind_servoLoss (s := s.inProgress 15 tag 0) hs hr rfl rfl
  · have hf : s.clearConditions = false := by
      rw [Bool.eq_false_iff, Ne, s.clearConditions_iff]
      rintro ⟨h1, h2, h3⟩
      rcases hc with hc | hc | hc
      · exact absurd (h1.symm.trans hc) (by decide)
      · omega
      · omega
    rw [State.clear_exec h, State.clearCommand, State.inProgress_run, hs]
    dsimp only
    rw [State.clearTripped, if_neg (by rw [show (s.inProgress 16 tag 0).clearConditions = false from hf]; decide)]
    rfl
  · rw [State.clear_exec h, State.clearCommand, State.inProgress_run]
    split
    · exact absurd ‹_› h1
    · exact absurd ‹_› h2
    · rfl

end Sys2Proof.Machine

namespace Sys2Proof.Machine

variable {s t u : State}

/-! ### The edge of an output instant -/

/-- The edge of an output instant reached with the scratch at rest, its mark set (R123). -/
def State.instantEdge (s : State) : State :=
  let t := s.settle.elapse s.settle.edgesToInstant
  { t with time := { t.time with mark := true } }

@[simp] theorem State.instantEdge_run : s.instantEdge.run = s.run := rfl
@[simp] theorem State.instantEdge_drive : s.instantEdge.drive = s.drive := rfl
@[simp] theorem State.instantEdge_sched : s.instantEdge.sched = s.sched := rfl
@[simp] theorem State.instantEdge_peers : s.instantEdge.peers = s.peers := rfl
@[simp] theorem State.instantEdge_items : s.instantEdge.items = s.items := rfl
@[simp] theorem State.instantEdge_orders : s.instantEdge.orders = s.orders := rfl
@[simp] theorem State.instantEdge_scratch : s.instantEdge.scratch = .rest := rfl

theorem State.running_of_cond (h : s.cond = .running) : s.running = true := by simp [State.running, h]

/-- What a running part does in a step. -/
theorem State.whileRunning_eq (h : s.cond = .running) (f : State → State) : s.whileRunning f = (f s.settle).settle := by
  rw [State.whileRunning, if_pos (State.running_of_cond h)]

/-- The instant of a cycle that has taken it already is no instant (R123). -/
theorem State.instant_exec_marked (h : s.cond = .running) (hm : s.time.mark = true) (first : List InstantReport) :
    exec (.outputInstant first) s = .next { s with scratch := .rest } := by
  show Host.Outcome.next (s.whileRunning (State.instant first)) = _
  rw [State.whileRunning_eq h, State.instant_marked first (show s.settle.time.mark = true from hm)]
  rfl

/-- An instant of a running part is the act of the units at its edge (R123). -/
theorem State.settle_instant (hm : s.time.mark = false) (first : List InstantReport) :
    s.settle.instant first = s.instantEdge.actInstant first := by
  rw [State.instant_unmarked first (show s.settle.time.mark = false from hm)]
  rfl

theorem State.instant_exec (h : s.cond = .running) (hm : s.time.mark = false) (first : List InstantReport) :
    exec (.outputInstant first) s = .next (s.instantEdge.actInstant first).settle := by
  show Host.Outcome.next (s.whileRunning (State.instant first)) = _
  rw [State.whileRunning_eq h, State.settle_instant hm]

/-! ### The facts of an instant -/

@[simp] theorem State.instantFacts_state (s : State) : s.instantFacts.2.state = s.run.state := rfl
@[simp] theorem State.instantFacts_taken (s : State) : s.instantFacts.2.taken = s.consume.2 := rfl
@[simp] theorem State.instantFacts_served (s : State) : s.instantFacts.2.served =
    servesRequest s.consume.1.drive.apply s.run.state s.consume.2 := rfl

/-- The stations that an instant finds late (R12). -/
theorem State.instantFacts_late (s : State) : s.instantFacts.2.late =
    if s.run.state == .run || s.run.state == .pausing || s.run.state == .paused then
      s.instantReady.lateStations (targetIndex s.run.state (instantIndex s.consume.2 s.instantReady.sched.replay)
        s.instantReady.items.lag s.instantReady.drive.runStart)
    else [] := rfl

/-- Outside the playing states nothing is consumed (R43). -/
theorem State.consume_of_not_playing (h : s.run.state.playing = false) : s.consume = (s, none) := by
  rw [State.consume, if_neg (by simp [h])]

/-- Nor without a head. -/
theorem State.consume_of_no_head (h : s.sched.head = none) : s.consume = (s, none) := by
  unfold State.consume
  split
  · rw [Sched.consume_of_head_none h]; rfl
  · rfl

@[simp] theorem servesRequest_none (r : RunState) (k : Option Taken) : servesRequest .none r k = none := rfl

theorem State.consume_apply (s : State) : s.consume.1.drive.apply = s.drive.apply := by
  obtain ⟨c, n, e⟩ := s.consume_frame
  rw [e]
  show (s.drive.hold s.consume.2).apply = _
  rw [Drive.hold_frame]

/-- Without an apply request the consumption alone comes before the computation. -/
theorem State.instantReady_of_none (h : s.drive.apply = .none) : s.instantReady = s.consume.1 := by
  rw [State.instantReady, s.consume_apply, h]
  rfl

/-- The target index of an instant (R9). -/
def State.instantTarget (s : State) : Nat :=
  targetIndex s.run.state (instantIndex s.consume.2 s.instantReady.sched.replay) s.instantReady.items.lag
    s.instantReady.drive.runStart

/-- The sum that an instant computes (R5). -/
def State.instantSum (s : State) : Int :=
  s.instantReady.drive.base s.consume.2 +
    (if s.run.state.coupling then s.instantReady.couplingSum s.instantTarget else 0) + s.instantReady.items.bias

/-- The hold runs of an instant, taken in the states in which the coupling acts (R11). -/
def State.instantHeld (s : State) : State :=
  if s.run.state.coupling then s.instantReady.updateHoldRuns s.instantTarget else s.instantReady

theorem State.instantHeld_frame (s : State) : ∃ v, s.instantHeld = { s.instantReady with peers := v } := by
  unfold State.instantHeld
  split
  · exact s.instantReady.updateHoldRuns_frame _
  · exact ⟨s.instantReady.peers, rfl⟩

/-- Where an instant computes, it computes its sum, the hold runs taken (R5, R11). -/
theorem State.instantFacts_of_computes (h : s.run.state.computes = true) :
    s.instantFacts.1 = s.instantHeld.computeDrive s.instantSum := by
  obtain ⟨v, hv⟩ := s.instantHeld_frame
  rw [State.instantFacts_fst]
  simp only [State.driveInstant, if_pos h]
  rw [show (if s.run.state.coupling then s.instantReady.updateHoldRuns (targetIndex s.run.state
    (instantIndex s.consume.2 s.instantReady.sched.replay) s.instantReady.items.lag s.instantReady.drive.runStart)
    else s.instantReady) = s.instantHeld from rfl, hv]
  rfl

theorem State.instantFacts_of_not_computes (h : s.run.state.computes = false) (hc : s.run.state.coupling = false) :
    s.instantFacts.1 = s.instantReady := by
  rw [State.instantFacts_fst]
  simp [State.driveInstant, h, hc]

/-! ### One computation presented (R16 to R19) -/

/-- The clip and slew counters of a computation follow its flags (R16, R17). -/
theorem State.computeDrive_counters (x : Int) (s : State) :
    (s.computeDrive x).counter .clip = (if (s.drive.compute s.items x).clipFlag then min 4294967295 (s.counter .clip + 1)
      else s.counter .clip) ∧
    (s.computeDrive x).counter .slew = (if (s.drive.compute s.items x).slewFlag then min 4294967295 (s.counter .slew + 1)
      else s.counter .slew) := by
  have hc : ∀ u : State, (u.bump .slew).counter .clip = u.counter .clip := fun u => u.count_counter_other _ _ 1 (by decide)
  have hs : ∀ u : State, (u.bump .clip).counter .slew = u.counter .slew := fun u => u.count_counter_other _ _ 1 (by decide)
  have h : ∀ c, ({ s with drive := s.drive.compute s.items x } : State).counter c = s.counter c := fun _ => rfl
  cases h1 : (s.drive.compute s.items x).clipFlag <;> cases h2 : (s.drive.compute s.items x).slewFlag <;>
    simp [State.computeDrive, h1, h2, hc, hs, h, saturate32]

/-- A computation from a sum presents it with its flags and counters. -/
theorem State.computeDrive_computed (x : Int) (s : State) : s.computed x (s.computeDrive x) := by
  intro s1 s2 v h1 h2 hv
  have hd : (s.computeDrive x).drive = s.drive.compute s.items x := by
    obtain ⟨c, e⟩ := State.computeDrive_frame x s
    rw [e]
  have hclip : (s.drive.compute s.items x).clipFlag = (s1 != x) := by rw [h1]; rfl
  have hslew : (s.drive.compute s.items x).slewFlag = (s2 != s1) := by rw [h2, h1]; rfl
  have hprev : (s.drive.compute s.items x).prev = s2 := by rw [h2, h1]; rfl
  have hcode : (s.drive.compute s.items x).code = (v + 128) / 256 := by rw [hv, h2, h1]; rfl
  have hres : (s.drive.compute s.items x).residual = if s.items.carry then v - 256 * ((v + 128) / 256) else 0 := by
    rw [hv, h2, h1]; rfl
  obtain ⟨k1, k2⟩ := s.computeDrive_counters x
  rw [hd, hprev, hcode, hres, k1, k2, hclip, hslew]
  refine ⟨rfl, rfl, rfl, rfl, by simp, by simp, ?_, ?_⟩
  · by_cases e : s1 = x <;> simp [e]
  · by_cases e : s2 = s1 <;> simp [e]

/-- A computation is told by the items, the drive output and the clip and slew counters before and after it. -/
theorem State.computed_of_eq {x : Int} {s' t' : State} (h : s.computed x t) (hi : s'.items = s.items)
    (hd : s'.drive.prev = s.drive.prev ∧ s'.drive.residual = s.drive.residual ∧ s'.drive.strobes = s.drive.strobes)
    (hs : s'.counter .clip = s.counter .clip ∧ s'.counter .slew = s.counter .slew)
    (ho : t'.drive.output = t.drive.output) (ht : t'.outputCounts = t.outputCounts) : s'.computed x t' := by
  obtain ⟨h1, h2, h3⟩ := hd
  obtain ⟨h4, h5⟩ := hs
  simp only [Drive.output, Prod.mk.injEq] at ho
  obtain ⟨o1, o2, o3, -, -, -, -, o4, o5, o6⟩ := ho
  simp only [State.outputCounts, Prod.mk.injEq] at ht
  obtain ⟨c1, c2, -⟩ := ht
  unfold State.computed
  rw [hi, h1, h2, h3, h4, h5, o1, o2, o3, o4, o5, o6, c1, c2]
  exact h

end Sys2Proof.Machine

namespace Sys2Proof.Machine

variable {s t u : State}

/-! ### An instant as a whole -/

/-- The reports of an instant, made. -/
def State.reported (first : List InstantReport) (s : State) : State :=
  (orderedBy first instantReports).foldl (State.report s.instantFacts.2) s.instantFacts.1

/-- The units act, the reports follow, and after a consumption the reader tests its conditions (R34). -/
theorem State.actInstant_eq (first : List InstantReport) (s : State) :
    s.actInstant first = if s.consume.2.isSome then (s.reported first).fetch else s.reported first := rfl

theorem State.reported_quiet (first : List InstantReport) (s : State) : (s.reported first).quiet = s.instantFacts.1.quiet :=
  foldl_keeps State.quiet _ (fun t r => t.report_quiet _ r) _ _

theorem State.reported_outputCounts (first : List InstantReport) (s : State) :
    (s.reported first).outputCounts = s.instantFacts.1.outputCounts :=
  (State.reports_moves (A := fun _ => True) _ _ _ fun _ _ => trivial).keeps_outputCounts

theorem State.actInstant_steady (first : List InstantReport) (s : State) :
    (s.actInstant first).steady = s.instantFacts.1.steady := by
  rw [State.actInstant_eq]
  have h := State.steady_of_quiet (s.reported_quiet first)
  split
  · exact (State.steady_of_quiet (State.fetch_quiet _)).trans h
  · exact h

theorem State.actInstant_outputCounts (first : List InstantReport) (s : State) :
    (s.actInstant first).outputCounts = s.instantFacts.1.outputCounts := by
  rw [State.actInstant_eq]
  have h := s.reported_outputCounts first
  split
  · exact ((Moves.still (A := noOrder) (State.fetch_gear _)).keeps_outputCounts).trans h
  · exact h

/-- A consumption raises no counter but that of the underruns (R45). -/
theorem State.consume_counter (s : State) {c : Counter} (hc : c.place ≠ Counter.underrun.place) :
    s.consume.1.counter c = s.counter c := by
  unfold State.consume
  split
  · dsimp only
    split
    · split
      · exact State.count_counter_other _ _ _ _ hc
      · rfl
    · rfl
  · rfl

/-- Before the computation the drive unit takes the held sample and the banks alone (R6, R27). -/
theorem State.instantReady_frame (s : State) : ∃ c n h a q, s.instantReady =
    { s with sched := c, drive := { s.drive with held := h, active := a, apply := q }, port := { s.port with counters := n } } := by
  obtain ⟨c, n, e⟩ := s.consume_frame
  rw [Drive.hold_frame] at e
  rw [State.instantReady]
  cases servesRequest s.consume.1.drive.apply s.run.state s.consume.2 with
  | none => exact ⟨c, n, _, s.drive.active, s.drive.apply, e⟩
  | some q => rw [State.serve_some, e]; exact ⟨c, n, _, s.drive.pendingBank, .none, rfl⟩

theorem State.instantReady_counter (s : State) {c : Counter} (hc : c.place ≠ Counter.underrun.place) :
    s.instantReady.counter c = s.counter c := by
  refine Eq.trans ?_ (s.consume_counter hc)
  rw [State.counter, State.instantReady, State.serve_port]
  rfl

/-- Where an instant computes, it presents its sum (R16 to R19), whatever its reports do. -/
theorem State.actInstant_computed (h : s.run.state.computes = true) (first : List InstantReport) :
    s.computed s.instantSum (s.actInstant first).settle := by
  obtain ⟨v, hv⟩ := s.instantHeld_frame
  obtain ⟨c, n, hh, a, q, e⟩ := s.instantReady_frame
  refine State.computed_of_eq (State.computeDrive_computed s.instantSum s.instantHeld) ?_ ?_ ?_ ?_ ?_
  · rw [hv, e]; rfl
  · rw [hv, e]; exact ⟨rfl, rfl, rfl⟩
  · rw [hv]
    exact ⟨(s.instantReady_counter (by decide)).symm, (s.instantReady_counter (by decide)).symm⟩
  · rw [← State.instantFacts_of_computes h]
    exact State.output_of_steady (s.actInstant_steady first)
  · rw [← State.instantFacts_of_computes h]
    exact s.actInstant_outputCounts first

/-! ### An instant at rest (R5, R20) -/

/-- Reports with nothing to report change nothing. -/
theorem State.report_idle {f : InstantFacts} (h1 : f.served = none) (h2 : f.taken = none) (h3 : f.late = []) (r : InstantReport)
    (s : State) : s.report f r = s := by
  cases r <;> simp [State.report, h1, h2, h3]

theorem State.actInstant_idle (h1 : s.consume.2 = none) (h2 : s.drive.apply = .none) (h3 : s.instantFacts.2.late = [])
    (first : List InstantReport) : s.actInstant first = s.instantFacts.1 := by
  have hs : s.instantFacts.2.served = none := by
    rw [State.instantFacts_served, s.consume_apply, h2, servesRequest_none]
  rw [State.actInstant_eq, h1]
  exact List.foldl_fixed' (fun r => State.report_idle hs h1 h3 r _) _

/-- A state in which nothing is played and the coupling does not act (R5). -/
theorem RunState.not_coupling {r : RunState} (hp : r.playing = false) (hr : r ≠ .paused) : r.coupling = false := by
  simp [RunState.coupling, hp, hr]

section Rest
variable (hp : s.run.state.playing = false) (hr : s.run.state ≠ .paused) (ha : s.drive.apply = .none)
include hp

include hr in
theorem State.rest_late : s.instantFacts.2.late = [] := by
  rw [State.instantFacts_late, if_neg]
  intro h
  cases hs : s.run.state <;> simp_all [RunState.playing]

include hr ha in
theorem State.rest_instant (first : List InstantReport) : s.actInstant first = s.instantFacts.1 :=
  State.actInstant_idle (by rw [State.consume_of_not_playing hp]) ha (State.rest_late hp hr) first

include ha in
theorem State.rest_ready : s.instantReady = s := by
  rw [State.instantReady_of_none ha, State.consume_of_not_playing hp]

include hr ha in
theorem State.rest_held : s.instantHeld = s := by
  rw [State.instantHeld, RunState.not_coupling hp hr, if_neg (by decide), State.rest_ready hp ha]

include hr ha in
theorem State.rest_sum : s.instantSum = s.items.bias := by
  rw [State.instantSum, State.rest_ready hp ha, State.consume_of_not_playing hp, RunState.not_coupling hp hr]
  simp [Drive.base]

end Rest

/-- Settles O14: at rest no report has anything to report, and the sum is the bias. -/
theorem instantAtRestPresentsTheBias : Obligations.InstantAtRestPresentsTheBias := by
  intro s first hc
  refine ⟨fun hm => State.instant_exec_marked hc hm first, fun hm ha hp hr => ⟨_, State.instant_exec hc hm first, ?_⟩⟩
  have hf := State.rest_instant (s := s.instantEdge) hp hr ha first
  have hcomp := fun h => State.actInstant_computed (s := s.instantEdge) h first
  rw [State.rest_sum (s := s.instantEdge) hp hr ha] at hcomp
  rw [hf] at hcomp ⊢
  cases hk : s.run.state.computes
  · rw [State.instantFacts_of_not_computes (s := s.instantEdge) hk (RunState.not_coupling hp hr),
      State.rest_ready (s := s.instantEdge) hp ha]
    refine ⟨rfl, rfl, rfl, rfl, rfl, rfl, rfl, rfl, rfl, rfl, fun _ => ⟨rfl, rfl⟩, fun h1 h2 => ?_⟩
    exact absurd hk (by cases hs : s.run.state <;> simp_all [RunState.computes])
  · have hx := hcomp hk
    rw [State.instantFacts_of_computes (s := s.instantEdge) hk, State.rest_held (s := s.instantEdge) hp hr ha] at hx ⊢
    generalize s.instantEdge.instantSum = x at hx ⊢
    obtain ⟨v, e⟩ := s.instantEdge.computeDrive_frame x
    rw [e, Drive.compute_frame] at hx ⊢
    refine ⟨rfl, rfl, rfl, rfl, rfl, rfl, rfl, rfl, rfl, rfl, fun h => ?_, fun _ _ => ?_⟩
    · rcases h with h | h <;> exact absurd hk (by rw [h]; decide)
    · exact ⟨hx, rfl, rfl, rfl, rfl, rfl, rfl, rfl, rfl, rfl⟩

end Sys2Proof.Machine

namespace Sys2Proof.Machine

variable {s t u : State} {tag : Byte} {e : Entry} {rest : List Entry} {p : HeadPos}

/-! ### Consumption with a head (R43 to R47) -/

/-- What a consumption hands on, with a head (R43, R44). -/
theorem Sched.consume_head {c : Sched} (hq : c.queue = e :: rest) (hp : c.head = some p) : ∃ k, c.consume.2 = some k ∧
    k.sample = c.fifo.head? ∧ k.gain = e.gain ∧ k.env = envelope c.shapes e p.rep p.offset ∧ k.index = c.next ∧
    k.offset = p.offset := by
  unfold Sched.consume
  rw [hq, hp]
  exact ⟨_, rfl, rfl, rfl, rfl, rfl, rfl⟩

theorem State.consume_snd (h : s.run.state.playing = true) : s.consume.2 = s.sched.consume.2 := by
  rw [State.consume, if_pos h]

/-! ### The coupling banks (R26, R27) -/

/-- The computation of an instant leaves banks, apply request, factors and held sample as it found them. -/
theorem State.instantFacts_drive (s : State) : s.instantFacts.1.drive.active = s.instantReady.drive.active ∧
    s.instantFacts.1.drive.pendingBank = s.instantReady.drive.pendingBank ∧
    s.instantFacts.1.drive.apply = s.instantReady.drive.apply ∧ s.instantFacts.1.drive.held = s.instantReady.drive.held := by
  obtain ⟨v, c, x, e⟩ := s.instantReady.driveInstant_frame s.run.state s.consume.2
    (instantIndex s.consume.2 s.instantReady.sched.replay)
  rw [State.instantFacts_fst, e]
  dsimp only
  split <;> exact ⟨rfl, rfl, rfl, rfl⟩

/-- Reports and reader leave banks, apply request and held sample (R88, R34). -/
theorem State.actInstant_drive (first : List InstantReport) (s : State) :
    (s.actInstant first).drive.active = s.instantReady.drive.active ∧
    (s.actInstant first).drive.pendingBank = s.instantReady.drive.pendingBank ∧
    (s.actInstant first).drive.apply = s.instantReady.drive.apply ∧
    (s.actInstant first).drive.held = s.instantReady.drive.held := by
  have h := State.output_of_steady (s.actInstant_steady first)
  simp only [Drive.output, Prod.mk.injEq] at h
  obtain ⟨-, -, -, h1, h2, h3, h4, -⟩ := h
  rw [h1, h2, h3, h4]
  exact s.instantFacts_drive

/-- A request served copies the pending bank (R27). -/
theorem State.instantReady_served (h : (servesRequest s.drive.apply s.run.state s.consume.2).isSome = true) :
    s.instantReady.drive.active = s.drive.pendingBank ∧ s.instantReady.drive.pendingBank = s.drive.pendingBank ∧
    s.instantReady.drive.apply = .none := by
  obtain ⟨c, n, e⟩ := s.consume_frame
  rw [Drive.hold_frame] at e
  obtain ⟨q, hq⟩ := Option.isSome_iff_exists.mp h
  rw [State.instantReady, s.consume_apply, hq, State.serve_some, e]
  exact ⟨rfl, rfl, rfl⟩

/-- A request not served leaves the banks (R27). -/
theorem State.instantReady_unserved (h : servesRequest s.drive.apply s.run.state s.consume.2 = none) :
    s.instantReady = s.consume.1 := by
  rw [State.instantReady, s.consume_apply, h]
  rfl

/-- The banks, the apply request and the factors stand through a consumption. -/
theorem State.consume_drive (s : State) : s.consume.1.drive = { s.drive with held := s.consume.1.drive.held } := by
  obtain ⟨c, n, e⟩ := s.consume_frame
  rw [Drive.hold_frame] at e
  rw [e]

/-- When the request is served: NOW at any instant, AT_REPEAT where no sample is played or at offset 0 (R27). -/
theorem servesRequest_isSome {q : ApplyRequest} {r : RunState} {k : Option Taken}
    (h : q = .now ∨ (q = .atRepeat ∧ r.playing = false) ∨ (q = .atRepeat ∧ ∃ t, k = some t ∧ t.offset = 0)) :
    (servesRequest q r k).isSome = true := by
  rcases h with rfl | ⟨rfl, h⟩ | ⟨rfl, t, rfl, h⟩
  · rfl
  · simp [servesRequest, h]
  · simp only [servesRequest, h, if_true]
    split <;> rfl

theorem servesRequest_atRepeat_none {r : RunState} {k : Taken} (h : r.playing = true) (hk : k.offset ≠ 0) :
    servesRequest .atRepeat r (some k) = none := by
  simp [servesRequest, h, hk]

/-- WRITE COUPLING by its words (R26, R202). -/
theorem State.writeCoupling_exec (h : s.takesCommands) {j : Station} {a v : Word} (ha : a.toNat = stationNumber j) :
    (s.items.station ≠ stationNumber j → -32768 ≤ v.toInt → v.toInt ≤ 32767 →
      exec (.writeCoupling tag [a, v]) s = .next (({ s with drive := { s.drive with
        pendingBank := put s.drive.pendingBank j v.toInt } } : State).replied 9 tag 2 .ok [])) ∧
    (s.items.station = stationNumber j →
      exec (.writeCoupling tag [a, v]) s = .next (s.replied 9 tag 2 .invalid [1])) ∧
    (s.items.station ≠ stationNumber j → (v.toInt < -32768 ∨ 32767 < v.toInt) →
      exec (.writeCoupling tag [a, v]) s = .next (s.replied 9 tag 2 .invalid [2])) := by
  have he : exec (.writeCoupling tag [a, v]) s = .next ((s.inProgress 9 tag 2).writeCoupling [a, v]).settle := by
    show Host.Outcome.next (s.command 9 tag [a, v] (withCount 2 [a, v] (State.writeCoupling [a, v]))) = _
    rw [State.command_eq h, withCount_of_eq (by rfl)]
    rfl
  have hj : stationOf? (argAt [a, v] 0).toNat = some j := by
    rw [show argAt [a, v] 0 = a from rfl, ha, stationOf?_stationNumber]
  rw [he, State.writeCoupling, hj]
  dsimp only
  refine ⟨fun hn h1 h2 => ?_, fun hn => ?_, fun hn hv => ?_⟩
  · rw [if_neg (fun e => hn e.symm), if_pos (show inSignedRange (argAt [a, v] 1) (-32768) 32767 = true from decide_eq_true ⟨h1, h2⟩)]
    rfl
  · rw [if_pos (show stationNumber j = (s.inProgress 9 tag 2).ownNumber from hn.symm)]
    rfl
  · rw [if_neg (fun e => hn e.symm), if_neg (by simp [inSignedRange, argAt]; omega)]
    rfl

/-- APPLY COUPLING taken is its owner's work (R27). -/
theorem State.applyCoupling_exec (h : s.takesCommands) (w : Word) :
    exec (.applyCoupling tag [w]) s = .next ((s.inProgress 10 tag 1).applyCoupling [w]).settle := by
  show Host.Outcome.next (s.command 10 tag [w] (withCount 1 [w] (State.applyCoupling [w]))) = _
  rw [State.command_eq h, withCount_of_eq (by rfl)]
  rfl

/-- Settles O51: the two commands by their words, and the serving at an instant by its request. -/
theorem couplingBanksAreApplied : Obligations.CouplingBanksAreApplied := by
  intro s tag
  refine ⟨fun h j a v ha => State.writeCoupling_exec h ha, fun h => ⟨State.applyCoupling_exec h 1, State.applyCoupling_exec h 2,
    fun w hw => ?_⟩, fun first hc hm hq => ⟨_, State.instant_exec hc hm first, ?_⟩,
    fun first e rest p hc hm ha hr hq hp ho => ⟨_, State.instant_exec hc hm first, ?_⟩⟩
  · rw [State.applyCoupling_exec h w, State.applyCoupling, show argAt [w] 0 = w from rfl]
    split
    · omega
    · omega
    · rfl
  · have hs : (servesRequest s.drive.apply s.run.state s.instantEdge.consume.2).isSome = true := by
      refine servesRequest_isSome ?_
      rcases hq with hq | hq | ⟨hq, e, rest, p, h1, h2, h3⟩
      · exact .inl hq
      · exact .inr (.inl hq)
      · cases hr : s.run.state.playing
        · exact .inr (.inl ⟨hq, rfl⟩)
        · obtain ⟨k, hk, -, -, -, -, ho⟩ := Sched.consume_head h1 h2
          exact .inr (.inr ⟨hq, k, (State.consume_snd (s := s.instantEdge) hr).trans hk, ho.trans h3⟩)
    obtain ⟨h1, h2, h3⟩ := State.instantReady_served (s := s.instantEdge) hs
    obtain ⟨g1, g2, g3, -⟩ := s.instantEdge.actInstant_drive first
    exact ⟨g1.trans h1, g2.trans h2, g3.trans h3⟩
  · obtain ⟨k, hk, -, -, -, -, hko⟩ := Sched.consume_head hq hp
    have hk' : s.instantEdge.consume.2 = some k := (State.consume_snd (s := s.instantEdge) hr).trans hk
    have hu : servesRequest s.instantEdge.drive.apply s.instantEdge.run.state s.instantEdge.consume.2 = none := by
      rw [hk', State.instantEdge_drive, State.instantEdge_run, ha]
      exact servesRequest_atRepeat_none hr (by rw [hko]; exact ho)
    obtain ⟨g1, -, g3, -⟩ := s.instantEdge.actInstant_drive first
    rw [State.instantReady_unserved hu, s.instantEdge.consume_drive] at g1 g3
    exact ⟨g1, g3.trans ha⟩

end Sys2Proof.Machine

namespace Sys2Proof.Machine

variable {s t u : State} {q : StopRequest} {k : Option Taken}

/-! ### The reports of an instant in play -/

/-- The states whose instants the coupling acts in (R5): those a class S request stops, and STOPPING. -/
def State.inPlay (s : State) : Prop := s.run.state.stoppable ∨ s.run.state = .stopping

/-- What reports of an instant in play leave: the factors, the peers, and without a consumed position schedule and orders. -/
structure Reported (k : Option Taken) (s t : State) : Prop where
  play : t.inPlay
  stepped : t.scratch.stepped = none
  drive : t.drive = { s.drive with runRamp := t.drive.runRamp }
  peers : t.peers = s.peers
  still : k = none → t.sched = s.sched ∧ t.orders = s.orders

theorem Reported.trans (h : Reported k s t) (g : Reported k t u) : Reported k s u where
  play := g.play
  stepped := g.stepped
  drive := by rw [g.drive, h.drive]
  peers := g.peers.trans h.peers
  still e := ⟨(g.still e).1.trans (h.still e).1, (g.still e).2.trans (h.still e).2⟩

section Reports
variable (hs : s.inPlay) (hx : s.scratch.stepped = none)
include hs hx

theorem Reported.refl : Reported k s s := ⟨hs, hx, rfl, rfl, fun _ => ⟨rfl, rfl⟩⟩

theorem Reported.of_aside (ha : s.Aside t) (hr : t.run.state = s.run.state) : Reported k s t where
  play := by unfold State.inPlay; rw [hr]; exact hs
  stepped := by rw [ha.scratch]; exact hx
  drive := by rw [ha.drive]
  peers := ha.peers
  still _ := ⟨ha.sched, ha.orders⟩

theorem State.request_reported (hq : q.cause.isT = false) : Reported k s (s.request q) := by
  rcases hs with h | h
  · obtain ⟨h1, -, h2, h3, h4, h5, h6, -⟩ := State.stopped_of_rest hq h hx
    exact ⟨.inr h1, by rw [h5]; exact hx, by rw [h2], h6, fun _ => ⟨h3, h4⟩⟩
  · obtain ⟨ha, hr, -⟩ := State.counted hq (.inl h)
    exact Reported.of_aside (.inr h) hx ha hr

theorem State.post_reported (x : EventKind) (a b : Word) : Reported k s (s.post x a b) :=
  Reported.of_aside hs hx (s.post_aside x a b) (by simp)

/-- The marker unit changes the marker line and the orders at the most (R50 to R52). -/
theorem State.runMarker_reported (y : Taken) (n : Nat) (m : MarkerSlot) (r : PosRecord) :
    Reported (some y) s (s.runMarker n m r) := by
  unfold State.runMarker
  split
  · exact ⟨hs, hx, rfl, rfl, fun e => nomatch e⟩
  · split
    · exact ⟨hs, hx, rfl, rfl, fun e => nomatch e⟩
    · exact State.post_reported hs hx _ _ _
  · exact .refl hs hx

theorem State.evaluateMarkers_reported (y : Taken) (r : PosRecord) : Reported (some y) s (s.evaluateMarkers r) := by
  unfold State.evaluateMarkers
  refine List.foldlRecOn (motive := fun t : State => Reported (some y) s t) _ _ (.refl hs hx) fun t ht x _ => ?_
  split
  · have hp := State.post_reported (k := some y) ht.play ht.stepped .marker (word x.1) r.detail
    exact (ht.trans hp).trans (State.runMarker_reported hp.play hp.stepped y _ _ _)
  · exact ht

theorem State.report_reported (f : InstantFacts) (r : InstantReport) : Reported f.taken s (s.report f r) := by
  cases r with
  | coupling =>
    simp only [State.report]
    split
    · exact .refl hs hx
    · exact State.post_reported hs hx _ _ _
  | segment =>
    simp only [State.report]
    split
    · exact .refl hs hx
    · split
      · exact .refl hs hx
      · have hp := fun (y : Option Taken) a b => State.post_reported (k := y) hs hx .segmentDone a b
        split
        · exact (hp _ _ _).trans (State.request_reported (hp none _ _).play (hp none _ _).stepped rfl)
        · exact hp _ _ _
  | underrun =>
    simp only [State.report]
    split
    · exact .refl hs hx
    · split
      · exact State.request_reported hs hx rfl
      · exact .refl hs hx
  | markers =>
    simp only [State.report]
    split
    · exact .refl hs hx
    · rename_i y hy
      rw [hy]
      split
      · exact State.evaluateMarkers_reported hs hx y _
      · exact .refl hs hx
  | late j =>
    simp only [State.report]
    split
    · have hb : Reported f.taken s (s.bring (.peerLate j)) := ⟨hs, hx, rfl, rfl, fun _ => ⟨rfl, rfl⟩⟩
      exact hb.trans (State.request_reported hb.play hb.stepped rfl)
    · exact .refl hs hx

theorem State.reports_reported (f : InstantFacts) (l : List InstantReport) :
    Reported f.taken s (l.foldl (State.report f) s) :=
  List.foldlRecOn (motive := fun t : State => Reported f.taken s t) l _ (.refl hs hx)
    fun _ ht r _ => ht.trans (State.report_reported ht.play ht.stepped f r)

end Reports

/-- The computation of an instant leaves run state, scratch, orders and factors, and the schedule as the consumption left it. -/
theorem State.instantFacts_frame (s : State) : s.instantFacts.1.run = s.run ∧ s.instantFacts.1.scratch = s.scratch ∧
    s.instantFacts.1.orders = s.orders ∧ s.instantFacts.1.store = s.store ∧ s.instantFacts.1.sched = s.consume.1.sched ∧
    s.instantFacts.1.drive.level = s.drive.level ∧ s.instantFacts.1.drive.ramp = s.drive.ramp ∧
    s.instantFacts.1.drive.runRamp = s.drive.runRamp := by
  obtain ⟨v, c, x, e⟩ := s.instantReady.driveInstant_frame s.run.state s.consume.2
    (instantIndex s.consume.2 s.instantReady.sched.replay)
  have hsched : s.instantReady.sched = s.consume.1.sched := by rw [State.instantReady, State.serve_sched]
  obtain ⟨c', n, h, a, q, e'⟩ := s.instantReady_frame
  rw [State.instantFacts_fst, e, ← hsched]
  rw [e']
  dsimp only
  split <;> exact ⟨rfl, rfl, rfl, rfl, rfl, rfl, rfl, rfl⟩

/-- What an instant in play leaves: the factors, and without a consumed position schedule and orders (R88). -/
theorem State.actInstant_inPlay (hs : s.inPlay) (hx : s.scratch.stepped = none) (first : List InstantReport) :
    (s.actInstant first).drive.level = s.drive.level ∧ (s.actInstant first).drive.ramp = s.drive.ramp ∧
    (s.consume.2 = none → (s.actInstant first).sched = s.consume.1.sched ∧ (s.actInstant first).orders = s.orders) := by
  obtain ⟨h1, h2, h3, -, h4, h5, h6, -⟩ := s.instantFacts_frame
  have hr : Reported s.consume.2 s.instantFacts.1 (s.reported first) :=
    State.reports_reported (s := s.instantFacts.1) (by unfold State.inPlay; rw [h1]; exact hs) (by rw [h2]; exact hx)
      s.instantFacts.2 _
  have hd : (s.actInstant first).drive = (s.reported first).drive := by
    rw [State.actInstant_eq]
    split
    · exact State.fetch_drive _
    · rfl
  refine ⟨?_, ?_, fun hk => ?_⟩
  · rw [hd, hr.drive]; exact h5
  · rw [hd, hr.drive]; exact h6
  · obtain ⟨g1, g2⟩ := hr.still hk
    rw [State.actInstant_eq, if_neg (by simp [hk])]
    exact ⟨g1.trans h4, g2.trans h3⟩

/-! ### The sum of an instant (R5) -/

/-- The coupling sum is told by peers, active bank and own number. -/
theorem State.couplingSum_congr (hp : t.peers = s.peers) (ha : t.drive.active = s.drive.active)
    (hi : t.ownNumber = s.ownNumber) (n : Nat) : t.couplingSum n = s.couplingSum n := by
  unfold State.couplingSum State.termOf State.couples State.peer
  rw [hp, ha, hi]

/-- The consumption leaves what the coupling sum is told by. -/
theorem State.consume_couplingSum (s : State) (n : Nat) : s.consume.1.couplingSum n = s.couplingSum n := by
  obtain ⟨c, m, e⟩ := s.consume_frame
  rw [Drive.hold_frame] at e
  rw [e]
  exact State.couplingSum_congr rfl rfl rfl n

theorem RunState.coupling_of_inPlay (h : s.inPlay) : s.run.state.coupling = true ∧ s.run.state.computes = true := by
  rcases h with (h | h | h) | h <;> rw [h] <;> decide

/-- Without an apply request the sum takes its coupling from the state before the consumption. -/
theorem State.instantSum_inPlay (h : s.inPlay) (ha : s.drive.apply = .none) : s.instantSum =
    s.consume.1.drive.base s.consume.2 + s.couplingSum s.instantTarget + s.items.bias := by
  obtain ⟨c, m, e⟩ := s.consume_frame
  have hi : s.consume.1.items = s.items := by rw [e]; rfl
  rw [State.instantSum, State.instantReady_of_none ha, (RunState.coupling_of_inPlay h).1, if_pos rfl,
    s.consume_couplingSum, hi]

/-- The target index of an instant, without an apply request (R9). -/
theorem State.instantTarget_of_none (ha : s.drive.apply = .none) : s.instantTarget =
    targetIndex s.run.state (instantIndex s.consume.2 s.consume.1.sched.replay) s.items.lag s.drive.runStart := by
  obtain ⟨c, m, e⟩ := s.consume_frame
  rw [Drive.hold_frame] at e
  have hi : s.consume.1.items.lag = s.items.lag := by rw [e]; rfl
  have hr : s.consume.1.drive.runStart = s.drive.runStart := by rw [e]
  rw [State.instantTarget, State.instantReady_of_none ha, hi, hr]

theorem RunState.ne_paused_of_playing {r : RunState} (h : r.playing = true) : r ≠ .paused := by
  rintro rfl; cases h

theorem State.inPlay_of_playing (h : s.run.state.playing = true) : s.inPlay := by
  unfold State.inPlay RunState.stoppable
  revert h
  cases s.run.state <;> simp [RunState.playing]

/-- Outside PAUSED the target is the index less Lag, with the floor of the run (R9). -/
theorem targetIndex_of_ne_paused {r : RunState} (h : r ≠ .paused) (n : Word) (lag : Nat) (x : Word) :
    targetIndex r n lag x = max (n.toNat - lag) x.toNat := if_neg h

/-! ### The envelope (R47) -/

/-- The entry of a fade shape at step i of n is one of its 256. -/
theorem fadeStep_le {i n : Nat} (h : i < n) : i * 256 / n ≤ 255 := by
  have : i * 256 / n < 256 := Nat.div_lt_of_lt_mul (by omega)
  omega

/-- The envelope inside a fade is its shape, elsewhere 1 (R47). -/
theorem envelope_cases {shapes : Words} {e : Entry} {r i : Nat} (he : e.inRanges) (hi : i < e.length) :
    (r = 1 → i < e.fadeIn → i * 256 / e.fadeIn ≤ 255 ∧
      envelope shapes e r i = min 32768 (shapes.read (e.shape * 256 + i * 256 / e.fadeIn)).toNat) ∧
    (r = e.repeats → e.length - e.fadeOut ≤ i → (e.length - 1 - i) * 256 / e.fadeOut ≤ 255 ∧
      envelope shapes e r i = min 32768 (shapes.read (e.shape * 256 + (e.length - 1 - i) * 256 / e.fadeOut)).toNat) ∧
    (¬ (r = 1 ∧ i < e.fadeIn) → ¬ (r = e.repeats ∧ e.length - e.fadeOut ≤ i) → envelope shapes e r i = 32768) := by
  obtain ⟨-, -, -, -, -, -, -, hf, -⟩ := he
  refine ⟨fun h1 h2 => ⟨fadeStep_le h2, if_pos ⟨h1, h2⟩⟩, fun h1 h2 => ⟨fadeStep_le (by omega), ?_⟩, fun h1 h2 => ?_⟩
  · rw [envelope, if_neg (by omega), if_pos ⟨h1, by omega, h2⟩]
    rfl
  · rw [envelope, if_neg h1, if_neg (fun h => h2 ⟨h.1, h.2.2⟩)]

/-- The held sample after a consumption (R6). -/
theorem Drive.hold_some (d : Drive) (y : Taken) :
    (d.hold (some y)).held = (match y.sample with | none => d.held | some x => x.toInt) := by
  cases h : y.sample <;> simp [Drive.hold, h]

/-- The base term of an instant with a head (R6 to R8). -/
theorem State.base_of_head {e : Entry} {rest : List Entry} {p : HeadPos} (hp : s.run.state.playing = true)
    (hq : s.sched.queue = e :: rest) (hh : s.sched.head = some p) : s.consume.1.drive.base s.consume.2 =
      baseTerm (match s.sched.fifo with | [] => s.drive.held | y :: _ => y.toInt) e.gain
        (combinedFactor (envelope s.sched.shapes e p.rep p.offset) s.drive.level s.drive.ramp) := by
  obtain ⟨y, hy, h1, h2, h3, -⟩ := Sched.consume_head hq hh
  obtain ⟨c, m, ef⟩ := s.consume_frame
  have hk : s.consume.2 = some y := (State.consume_snd hp).trans hy
  have hd : s.consume.1.drive = s.drive.hold (some y) := by rw [ef, hk]
  have hl : (s.drive.hold (some y)).level = s.drive.level ∧ (s.drive.hold (some y)).ramp = s.drive.ramp := by
    rw [Drive.hold_frame]; exact ⟨rfl, rfl⟩
  rw [hd, hk]
  show baseTerm (s.drive.hold (some y)).held y.gain (combinedFactor y.env _ _) = _
  rw [Drive.hold_some, hl.1, hl.2, h1, h2, h3]
  cases s.sched.fifo <;> rfl

/-- A computation raises the clip and slew counters alone. -/
theorem State.computeDrive_counter_other (x : Int) (s : State) {c : Counter} (h1 : c.place ≠ Counter.clip.place)
    (h2 : c.place ≠ Counter.slew.place) : (s.computeDrive x).counter c = s.counter c := by
  have hc : ∀ u : State, (u.bump .clip).counter c = u.counter c := fun u => u.count_counter_other _ _ 1 h1
  have hs : ∀ u : State, (u.bump .slew).counter c = u.counter c := fun u => u.count_counter_other _ _ 1 h2
  simp only [State.computeDrive]
  split
  · split
    · exact (hs _).trans ((hc _).trans rfl)
    · exact (hc _).trans rfl
  · split
    · exact (hs _).trans rfl
    · rfl

/-- An instant in play that consumes nothing computes from coupling and bias, and its reports leave schedule and orders (R5). -/
theorem State.actInstant_unfed (hs : s.inPlay) (hx : s.scratch.stepped = none) (ha : s.drive.apply = .none)
    (hk : s.consume = (s, none)) (first : List InstantReport) :
    (s.actInstant first).sched = s.sched ∧ (s.actInstant first).orders = s.orders ∧
    (s.actInstant first).drive.level = s.drive.level ∧ (s.actInstant first).drive.ramp = s.drive.ramp ∧
    (s.actInstant first).drive.active = s.drive.active ∧ (s.actInstant first).drive.held = s.drive.held ∧
    (s.actInstant first).counter .underrun = s.counter .underrun ∧
    s.computed (s.couplingSum (targetIndex s.run.state s.sched.replay s.items.lag s.drive.runStart) + s.items.bias)
      (s.actInstant first).settle := by
  obtain ⟨h1, h2, h3⟩ := State.actInstant_inPlay hs hx first
  obtain ⟨h4, -, -, h5⟩ := s.actInstant_drive first
  have hcomp := (RunState.coupling_of_inPlay hs).2
  have hy := State.actInstant_computed hcomp first
  rw [State.instantSum_inPlay hs ha, State.instantTarget_of_none ha, hk] at hy
  rw [State.instantReady_of_none ha, hk] at h4 h5
  rw [hk] at h3
  obtain ⟨h6, h7⟩ := h3 rfl
  refine ⟨h6, h7, h1, h2, h4, h5, ?_, ?_⟩
  · have hu : (s.actInstant first).counter .underrun = s.instantFacts.1.counter .underrun :=
      congrArg (·.2.2.1) (s.actInstant_outputCounts first)
    obtain ⟨v, hv⟩ := s.instantHeld_frame
    rw [hu, State.instantFacts_of_computes hcomp, State.computeDrive_counter_other _ _ (by decide) (by decide), hv,
      State.instantReady_of_none ha, hk]
    rfl
  · rw [show s.drive.base none = 0 from rfl, zero_add] at hy
    exact hy

/-- Settles O16: the sum from the consumed position, or from the coupling alone, and the envelope by its fades. -/
theorem instantComputesTheDriveValue : Obligations.InstantComputesTheDriveValue := by
  refine ⟨fun s first e rest p hc hm hr hq hh ha => ⟨_, State.instant_exec hc hm first, ?_⟩,
    fun s first hc hm hr hh ha => ⟨_, State.instant_exec hc hm first, ?_⟩,
    fun s first hc hm hr ha => ⟨_, State.instant_exec hc hm first, ?_⟩, fun _ _ _ _ he _ _ hi => envelope_cases he hi⟩
  · have hs : s.instantEdge.inPlay := State.inPlay_of_playing hr
    obtain ⟨h1, h2, -⟩ := State.actInstant_inPlay hs rfl first
    obtain ⟨h3, -⟩ := s.instantEdge.actInstant_drive first
    rw [State.instantReady_of_none (s := s.instantEdge) ha, State.consume_drive] at h3
    refine ⟨h1, h2, h3, fun d b m1 m hd hm1 hm' hb => ?_⟩
    have hx := State.actInstant_computed (RunState.coupling_of_inPlay hs).2 first
    obtain ⟨y, hy, -, -, -, hi, -⟩ := Sched.consume_head hq hh
    have hk : s.instantEdge.consume.2 = some y := (State.consume_snd (s := s.instantEdge) hr).trans hy
    have ht : s.instantEdge.instantTarget = max (s.sched.next.toNat - s.items.lag) s.drive.runStart.toNat := by
      rw [State.instantTarget_of_none (s := s.instantEdge) ha, hk]
      exact (targetIndex_of_ne_paused (RunState.ne_paused_of_playing hr) _ _ _).trans (by rw [← hi]; rfl)
    have hbase : b = s.instantEdge.consume.1.drive.base s.instantEdge.consume.2 := by
      rw [State.base_of_head (s := s.instantEdge) hr hq hh, hb, hm', hm1, hd]
      rfl
    rw [State.instantSum_inPlay hs ha, ← hbase, ht] at hx
    exact hx
  · have hs : s.instantEdge.inPlay := State.inPlay_of_playing hr
    have hk : s.instantEdge.consume = (s.instantEdge, none) := State.consume_of_no_head hh
    obtain ⟨h1, h2, h3, h4, h5, h6, h7, h8⟩ := State.actInstant_unfed hs rfl ha hk first
    rw [targetIndex_of_ne_paused (r := s.instantEdge.run.state) (RunState.ne_paused_of_playing hr)] at h8
    refine ⟨h1, h2, h3, h4, h5, h6, h7, fun hst => ?_, h8⟩
    have hl : s.instantEdge.instantFacts.2.late = [] := by
      rw [State.instantFacts_late, State.instantEdge_run, hst]
      rfl
    rw [State.actInstant_idle (s := s.instantEdge) (by rw [hk]) ha hl]
    exact s.instantEdge.instantFacts_frame.1
  · have hs : s.instantEdge.inPlay := .inl (.inr (.inr hr))
    have hk : s.instantEdge.consume = (s.instantEdge, none) :=
      State.consume_of_not_playing (by rw [State.instantEdge_run, hr]; rfl)
    obtain ⟨h1, h2, h3, h4, h5, h6, h7, h8⟩ := State.actInstant_unfed hs rfl ha hk first
    rw [State.instantEdge_run, hr] at h8
    exact ⟨h1, h2, h3, h4, h5, h6, h7, h8⟩

end Sys2Proof.Machine

namespace Sys2Proof.Machine

variable {s t u : State}

/-! ### PEER LATE in PAUSED (R12, R83) -/

/-- A fold in which one step reaches what every step keeps, under what every step keeps throughout. -/
theorem foldl_reaches {α β : Type} {f : β → α → β} {P Q : β → Prop} (hP : ∀ b a, P b → P (f b a))
    (hQ : ∀ b a, P b → Q b → Q (f b a)) {a : α} (ha : ∀ b, P b → Q (f b a)) {l : List α} (hm : a ∈ l) {b : β} (hb : P b) :
    Q (l.foldl f b) := by
  have hkeep : ∀ (l : List α) (b : β), P b → Q b → Q (l.foldl f b) := by
    intro l
    induction l with
    | nil => exact fun _ _ h => h
    | cons x l ih => exact fun b hp hq => ih _ (hP b x hp) (hQ b x hp hq)
  induction l generalizing b with
  | nil => exact absurd hm List.not_mem_nil
  | cons x l ih =>
    rcases List.mem_cons.mp hm with rfl | hm
    · exact hkeep l _ (hP b _ hb) (ha b hb)
    · exact ih hm (hP b x hb)

theorem State.onPeer_id (s : State) (j : Station) : s.onPeer j (fun p => p) = s := by
  have : put s.peers j (s.peers.get j) = s.peers := by
    ext i hi
    simp only [put, Vector.getElem_set]
    split
    · rename_i h; subst h; rfl
    · rfl
  unfold State.onPeer
  rw [this]

/-- The hold run of a station after an instant is that of its term (R11). -/
theorem State.updateHoldRuns_peer (s : State) (n : Nat) (j : Station) : (s.updateHoldRuns n).peer j =
    (match s.termOf n j with | some (_, run) => { s.peer j with holdRun := run } | none => s.peer j) := by
  have h : s.updateHoldRuns n = stations.foldl (fun u j => u.onPeer j (fun p =>
      match s.termOf n j with | some (_, run) => { p with holdRun := run } | none => p)) s := by
    unfold State.updateHoldRuns
    congr 1
    funext u j
    cases s.termOf n j with
    | none => exact (u.onPeer_id j).symm
    | some x => rfl
  obtain ⟨v, hv, hg⟩ := State.onPeers_get (fun j p =>
    match s.termOf n j with | some (_, run) => { p with holdRun := run } | none => p) stations (by decide) s
  rw [h, hv]
  refine (hg j).trans ?_
  rw [if_pos (by rw [stations_eq]; exact List.mem_finRange j)]

/-- A window without a fresh record at the target gives a held feedback (R11). -/
theorem chooseFeedback_held {w : List WindowRecord} {n : Word} (hw : w ≠ []) (h : ∀ x ∈ w, x.index = n → x.stale = true) :
    ∃ f, chooseFeedback w n.toNat = some (f, true) := by
  unfold chooseFeedback
  split
  · rename_i x hx
    have hi : x.index = n := BitVec.eq_of_toNat_eq (by simpa using List.find?_some hx)
    exact ⟨_, by rw [h x (List.mem_of_find?_eq_some hx) hi]⟩
  · split
    · exact ⟨_, rfl⟩
    · obtain ⟨x, hx⟩ := Option.isSome_iff_exists.mp (List.getLast?_isSome.mpr hw)
      exact ⟨_, by rw [hx]; rfl⟩

/-- A coupled station without a fresh record at the target lengthens its hold run (R10, R11). -/
theorem State.termOf_held {j : Station} {n : Word} (h1 : stationNumber j ≠ s.items.station) (h2 : s.drive.active.get j ≠ 0)
    (h3 : (s.peer j).state = .active ∨ (s.peer j).state = .silent) (h4 : (s.peer j).window ≠ [])
    (h5 : ∀ x ∈ (s.peer j).window, x.index = n → x.stale = true) :
    ∃ x, s.termOf n.toNat j = some (x, min 255 ((s.peer j).holdRun + 1)) := by
  have hc : s.couples j = true := by
    have h1' : stationNumber j ≠ s.ownNumber := h1
    unfold State.couples
    rcases h3 with h3 | h3 <;> simp [h1', h2, h3]
  obtain ⟨f, hf⟩ := chooseFeedback_held h4 h5
  exact ⟨_, by rw [State.termOf, if_pos hc, hf]; rfl⟩

/-- What a PAUSED instant makes of late stations: PAUSED still, or stopped for PEER LATE (R12, R83). -/
def State.lateStop (s t : State) : Prop :=
  t.run.state = .stopping ∧ t.run.stopField = some { origin := s.items.station, reason := 4 } ∧
    t.drive.runRamp = some .descent

/-- The states that the reports of a PAUSED instant pass through: nothing consumed, PAUSED still or stopped for a late station. -/
structure LateRow (s t : State) : Prop where
  reported : Reported none s t
  items : t.items = s.items
  state : t.run.state = .paused ∨ s.lateStop t

/-- A PEER LATE request in such a state stops the node, or is counted (R82, R83). -/
theorem LateRow.request (h : LateRow s t) (n : Nat) :
    LateRow s (t.requestLocal .peerLate n) ∧ s.lateStop (t.requestLocal .peerLate n) ∧
      (t.requestLocal .peerLate n).scratch = t.scratch := by
  have hr := State.request_reported (k := none) (q := t.localRequest .peerLate n) h.reported.play h.reported.stepped rfl
  have hi : (t.requestLocal .peerLate n).items = s.items :=
    (State.items_of_steady (State.steady_of_quiet (State.requestLocal_quiet _ _ _))).trans h.items
  have hl : s.lateStop (t.requestLocal .peerLate n) ∧ (t.requestLocal .peerLate n).scratch = t.scratch := by
    rcases h.state with hs | ⟨h1, h2, h3⟩
    · obtain ⟨g1, g2, g3, -, -, g4, -⟩ :=
        State.stopped_of_rest (q := t.localRequest .peerLate n) rfl (.inr (.inr hs)) h.reported.stepped
      refine ⟨⟨g1, g2.trans ?_, by rw [State.requestLocal, g3]⟩, g4⟩
      rw [← h.items]; rfl
    · obtain ⟨ha, g1, g2, -⟩ := State.counted (q := t.localRequest .peerLate n) rfl (.inl h1)
      exact ⟨⟨g1.trans h1, g2.trans h2, by rw [State.requestLocal, ha.drive]; exact h3⟩, ha.scratch⟩
  exact ⟨⟨h.reported.trans hr, hi, .inr hl.1⟩, hl⟩

/-- A report of an instant that consumed nothing and served nothing is idle, or the stop of a late station (R12). -/
theorem State.report_unfed {f : InstantFacts} (h1 : f.served = none) (h2 : f.taken = none) (r : InstantReport) (t : State) :
    t.report f r = t ∨ ∃ j, t.report f r = (t.bring (.peerLate j)).requestLocal .peerLate (stationNumber j) := by
  cases r with
  | coupling => exact .inl (by simp [State.report, h1])
  | segment => exact .inl (by simp [State.report, h2])
  | underrun => exact .inl (by simp [State.report, h2])
  | markers => exact .inl (by simp [State.report, h2])
  | late j =>
    simp only [State.report]
    split
    · exact .inr ⟨j, rfl⟩
    · exact .inl rfl

theorem LateRow.bring (h : LateRow s t) (x : Happening) : LateRow s (t.bring x) :=
  ⟨⟨h.reported.play, h.reported.stepped, h.reported.drive, h.reported.peers, h.reported.still⟩, h.items, h.state⟩

/-- The reports of a PAUSED instant that finds station j late stop the node for it (R12, R83). -/
theorem State.reports_late {f : InstantFacts} {j : Station} (h1 : f.served = none) (h2 : f.taken = none) (hj : j ∈ f.late)
    (hs : s.run.state = .paused) (hx : s.scratch.stepped = none) (first : List InstantReport) :
    LateRow s ((orderedBy first instantReports).foldl (State.report f) s) ∧
      s.lateStop ((orderedBy first instantReports).foldl (State.report f) s) ∧
      .peerLate j ∈ ((orderedBy first instantReports).foldl (State.report f) s).scratch.brought := by
  have hP : ∀ t r, LateRow s t → LateRow s (t.report f r) := by
    intro t r h
    rcases State.report_unfed h1 h2 r t with e | ⟨i, e⟩ <;> rw [e]
    · exact h
    · exact ((h.bring _).request _).1
  have hQ : ∀ t r, LateRow s t → (s.lateStop t ∧ Happening.peerLate j ∈ t.scratch.brought) →
      s.lateStop (t.report f r) ∧ Happening.peerLate j ∈ (t.report f r).scratch.brought := by
    rintro t r h ⟨g1, g2⟩
    rcases State.report_unfed h1 h2 r t with e | ⟨i, e⟩ <;> rw [e]
    · exact ⟨g1, g2⟩
    · obtain ⟨-, k1, k2⟩ := (h.bring (.peerLate i)).request (stationNumber i)
      exact ⟨k1, by rw [k2]; exact List.mem_cons_of_mem _ g2⟩
  have ha : ∀ t, LateRow s t → s.lateStop (t.report f (.late j)) ∧
      Happening.peerLate j ∈ (t.report f (.late j)).scratch.brought := by
    intro t h
    obtain ⟨-, k1, k2⟩ := (h.bring (.peerLate j)).request (stationNumber j)
    simp only [State.report, if_pos hj]
    exact ⟨k1, by rw [k2]; exact List.mem_cons_self⟩
  have hm : InstantReport.late j ∈ orderedBy first instantReports := by
    rw [(Laws.instant_reports_perm first).mem_iff]
    exact List.mem_append_right _ (List.mem_map_of_mem (by rw [stations_eq]; exact List.mem_finRange j))
  have h0 : LateRow s s := ⟨.refl (.inl (.inr (.inr hs))) hx, rfl, .inl hs⟩
  exact ⟨List.foldlRecOn (motive := fun t : State => LateRow s t) _ _ h0 fun t h r _ => hP t r h,
    foldl_reaches hP hQ ha hm h0⟩

/-- Settles O17: the late station is among the reports, and the first of them stops the node. -/
theorem latePeerStopsAPausedNode : Obligations.LatePeerStopsAPausedNode := by
  intro s first j hc hm hr ha h1 h2 h3 h4 h5 h6
  have hk : s.instantEdge.consume = (s.instantEdge, none) :=
    State.consume_of_not_playing (by rw [State.instantEdge_run, hr]; rfl)
  have hready : s.instantEdge.instantReady = s.instantEdge := by
    rw [State.instantReady_of_none (s := s.instantEdge) ha, hk]
  have htarget : s.instantEdge.instantTarget = s.sched.replay.toNat := by
    rw [State.instantTarget_of_none (s := s.instantEdge) ha, hk, State.instantEdge_run, hr]
    rfl
  obtain ⟨x, hterm⟩ := State.termOf_held (s := s.instantEdge) (n := s.sched.replay) h1 h2 h3 h4 h5
  have hcoup : s.instantEdge.run.state.coupling = true := by rw [State.instantEdge_run, hr]; rfl
  have hheld : s.instantEdge.instantHeld = s.instantEdge.updateHoldRuns s.sched.replay.toNat := by
    rw [State.instantHeld, if_pos hcoup, hready, htarget]
  have hlate : j ∈ s.instantEdge.instantFacts.2.late := by
    rw [State.instantFacts_late, if_pos (by rw [State.instantEdge_run, hr]; rfl)]
    show j ∈ s.instantEdge.instantReady.lateStations s.instantEdge.instantTarget
    rw [hready, htarget]
    refine List.mem_filter.mpr ⟨by rw [stations_eq]; exact List.mem_finRange j, ?_⟩
    rw [hterm]
    exact decide_eq_true h6
  have hserved : s.instantEdge.instantFacts.2.served = none := by
    rw [State.instantFacts_served, State.consume_apply]
    rw [show s.instantEdge.drive.apply = .none from ha, servesRequest_none]
  obtain ⟨f1, f2, f3, f4, f5, f6, f7, -⟩ := s.instantEdge.instantFacts_frame
  obtain ⟨hrow, ⟨g1, g2, g3⟩, g4⟩ := State.reports_late (s := s.instantEdge.instantFacts.1) hserved
    (by rw [State.instantFacts_taken, hk]) hlate (by rw [f1]; exact hr) (by rw [f2]; rfl) first
  have hact : s.instantEdge.actInstant first = s.instantEdge.reported first := by
    rw [State.actInstant_eq, if_neg (by simp [hk])]
  have hstore : (s.instantEdge.reported first).store = s.store :=
    (State.store_of_steady (State.steady_of_quiet (s.instantEdge.reported_quiet first))).trans f4
  have hitems : s.instantEdge.instantFacts.1.items = s.items := by
    rw [State.instantFacts_of_computes (by rw [State.instantEdge_run, hr]; rfl)]
    obtain ⟨v, hv⟩ := s.instantEdge.instantHeld_frame
    obtain ⟨c, hcd⟩ := s.instantEdge.instantHeld.computeDrive_frame s.instantEdge.instantSum
    rw [hcd, hv, hready]
    rfl
  have hpeer : (s.instantEdge.instantFacts.1.peer j).holdRun = min 255 ((s.peer j).holdRun + 1) := by
    rw [State.instantFacts_of_computes (by rw [State.instantEdge_run, hr]; rfl)]
    obtain ⟨c, hcd⟩ := s.instantEdge.instantHeld.computeDrive_frame s.instantEdge.instantSum
    rw [hcd]
    show (s.instantEdge.instantHeld.peer j).holdRun = _
    rw [hheld, State.updateHoldRuns_peer, hterm]
    rfl
  have hout := State.instant_exec hc hm first
  refine ⟨_, ?_, hout, ?_⟩
  · show Host.Outcome.next (s.whileRunning (State.bringing (.peerLate j) (State.instant first))) = _
    rw [State.whileRunning_eq hc, State.bringing, State.settle_instant hm, hact, if_pos]
    exact g4
  · rw [hact]
    have hsched := (hrow.reported.still rfl).1
    refine ⟨?_, g1, ?_, g3, ?_, ?_, hstore⟩
    · exact (congrArg (fun v : Vector Peer 16 => (v.get j).holdRun) hrow.reported.peers).trans hpeer
    · rw [hitems] at g2; exact g2
    · exact (congrArg Drive.ramp hrow.reported.drive).trans f7
    · refine hsched.trans (f5.trans ?_)
      rw [hk]
      rfl

end Sys2Proof.Machine

namespace Sys2Proof.Machine

variable {A : Order → Prop} {s t u : State}

/-! ### TRIPPED under the moves (R20, R85) -/

/-- What a trip leaves until a CLEAR: the line asserted, stop field and record held, the reader held, no ramp (R20, R85). -/
structure State.frozen (s : State) : Prop where
  trip : s.run.trip = true
  stopField : s.run.stopField.isSome = true
  record : s.run.record.isSome = true
  hold : s.sched.hold = true
  levelRamp : s.drive.levelRamp = none
  runRamp : s.drive.runRamp = none

theorem State.frozen_of_gear (h : t.gear = s.gear) (hs : s.frozen) : t.frozen := by
  obtain ⟨-, h1, -, h2, h3, h4, -, h5, -⟩ := State.gear_eq_iff.mp h
  obtain ⟨g1, g2, g3, g4, g5, g6⟩ := hs
  exact ⟨h1 ▸ g1, h2 ▸ g2, h3 ▸ g3, h5 ▸ g4, h4 ▸ g5, h4 ▸ g6⟩

theorem State.enterTripped_frozen (q : StopRequest) (s : State) : (s.enterTripped q).frozen := by
  obtain ⟨-, h1, -, h2, h3, h4, -, h5, -⟩ := s.enterTripped_fields q
  exact ⟨h1, by rw [h2]; rfl, h3, h5, by rw [h4], by rw [h4]⟩

/-- Only a trip enters TRIPPED, and what it leaves stands there under every move. -/
theorem Move.keeps_frozen (m : Move A s t) (h : s.run.state = .tripped → s.frozen) : t.run.state = .tripped → t.frozen := by
  have hc : ∀ {a r : RunState}, (a.settlesTo r = true ∨ a.orderedTo r = true) → r ≠ .tripped := by
    intro a r h; cases a <;> cases r <;> simp_all [RunState.settlesTo, RunState.orderedTo]
  cases m with
  | still e => rw [(State.gear_eq_iff.mp e).1]; exact fun g => State.frozen_of_gear e (h g)
  | change _ r e => exact fun g => absurd g (hc (.inl e))
  | order _ r _ e => exact fun g => absurd g (hc (.inr e))
  | stop => exact fun g => nomatch g
  | trip _ q => exact fun _ => s.enterTripped_frozen q
  | count _ i => exact fun g => nomatch (s.enterCountdown_fields i).1.symm.trans g
  | episode _ q =>
    intro g
    obtain ⟨g1, -, -, g4, g5, g6⟩ := h g
    exact ⟨g1, rfl, by simp [State.latch, State.setStopField], g4, g5, g6⟩
  | descend _ e => exact fun g => nomatch e.symm.trans g
  | stepRun =>
    intro g
    have hf := h g
    rw [s.runStepped_of_none hf.runRamp]
    exact hf
  | stepLevel _ e => exact fun g => absurd g e
  | ramp _ z x _ _ e =>
    intro g
    rcases e with e | e <;> exact nomatch e.symm.trans g
  | rampLevel _ _ e =>
    intro g
    rcases e with e | e | e <;> exact nomatch e.symm.trans g
  | applied =>
    intro g
    obtain ⟨g1, g2, g3, g4, g5, g6⟩ := h (by simpa using g)
    exact ⟨by simpa using g1, by simpa using g2, by simpa using g3, by simpa using g4, by simpa using g5, by simpa using g6⟩
  | inapplicable =>
    intro g
    obtain ⟨g1, g2, g3, g4, g5, g6⟩ := h (by simpa using g)
    exact ⟨by simpa using g1, by simpa using g2, by simpa using g3, by simpa using g4, by simpa using g5, by simpa using g6⟩
  | level =>
    intro g
    obtain ⟨g1, g2, g3, g4, -, g6⟩ := h g
    exact ⟨g1, g2, g3, g4, rfl, g6⟩
  | start =>
    intro g
    obtain ⟨g1, g2, g3, g4, g5, g6⟩ := h g
    exact ⟨g1, g2, g3, g4, g5, g6⟩
  | bring | abort | file | offer =>
    intro g
    obtain ⟨g1, g2, g3, g4, g5, g6⟩ := h g
    exact ⟨g1, g2, g3, g4, g5, g6⟩

/-- No move leaves TRIPPED. -/
theorem Move.stays_tripped (m : Move A s t) (hs : s.run.state = .tripped) : t.run.state = .tripped := by
  cases m with
  | still e => rw [(State.gear_eq_iff.mp e).1, hs]
  | change _ r e => rw [hs] at e; cases e
  | order _ r _ e => rw [hs] at e; cases e
  | stop _ e => exact nomatch hs.symm.trans e
  | trip _ q => exact (s.enterTripped_fields q).1
  | count _ i _ e => exact nomatch hs.symm.trans e
  | applied => simpa using hs
  | inapplicable => simpa using hs
  | bring | episode | descend | stepRun | stepLevel | abort | file | offer | level | start | ramp | rampLevel => exact hs

/-- What has come about in a step stays noted (log 2). -/
theorem Move.keeps_brought {x : Happening} (m : Move A s t) (hs : x ∈ s.scratch.brought) : x ∈ t.scratch.brought := by
  have ha : ∀ (y : Scratch) (r : RampReport), (y.atZero r).brought = y.brought := fun y r => by
    unfold Scratch.atZero; split <;> rfl
  cases m with
  | still e => rw [(State.gear_eq_iff.mp e).2.2.2.2.2.2.2.2.1]; exact hs
  | bring => exact List.mem_cons_of_mem _ hs
  | change _ r => simpa using hs
  | order _ r => simpa using hs
  | stop => simpa using hs
  | trip _ q =>
    obtain ⟨-, -, -, -, -, -, -, -, h, -⟩ := s.enterTripped_fields q
    rw [h]; exact hs
  | count _ i =>
    obtain ⟨-, -, -, -, -, -, -, -, h, -⟩ := s.enterCountdown_fields i
    rw [h]; exact hs
  | stepRun => rw [State.runStepped, ha]; exact hs
  | applied => simpa using hs
  | inapplicable => simpa using hs
  | episode | descend | stepLevel | abort | file | offer | level | start | ramp | rampLevel => exact hs

theorem Moves.keeps_frozen (h : Moves A s t) (hs : s.run.state = .tripped → s.frozen) : t.run.state = .tripped → t.frozen :=
  h.keeps (P := fun u => u.run.state = .tripped → u.frozen) Move.keeps_frozen hs

theorem Moves.stays_tripped (h : Moves A s t) (hs : s.run.state = .tripped) : t.run.state = .tripped :=
  h.keeps (P := fun u => u.run.state = .tripped) Move.stays_tripped hs

theorem Moves.keeps_brought {x : Happening} (h : Moves A s t) (hs : x ∈ s.scratch.brought) : x ∈ t.scratch.brought :=
  h.keeps (P := fun u => x ∈ u.scratch.brought) Move.keeps_brought hs

/-! ### The boundary of a cycle whose instant has been taken -/

/-- The boundary with its scratch at rest. -/
theorem State.boundary_exec (h : s.cond = .running) (hm : s.time.mark = true) (first : List BoundaryAction) :
    exec (.cycleBoundary first) s = .next (s.settle.boundary first).settle := by
  show Host.Outcome.next (s.whileRunning (State.endCycle first)) = _
  rw [State.whileRunning_eq h, State.endCycle_marked first (show s.settle.time.mark = true from hm)]
  rfl

/-- A named step that comes about inside the boundary is the boundary (log 2). -/
theorem State.bringing_boundary (h : s.cond = .running) (hm : s.time.mark = true) {x : Happening} {first : List BoundaryAction}
    (hx : x ∈ (s.settle.boundary first).scratch.brought) :
    s.whileRunning (State.bringing x (State.endCycle first)) = (s.settle.boundary first).settle := by
  rw [State.whileRunning_eq h, State.bringing, State.endCycle_marked first (show s.settle.time.mark = true from hm)]
  exact congrArg State.settle (if_pos hx)

theorem State.boundary_eq (first : List BoundaryAction) (s : State) :
    s.boundary first = (orderedBy first boundaryActions).foldl State.act s.opened := rfl

/-- Every act of a boundary is among those taken. -/
theorem mem_boundaryOrder (first : List BoundaryAction) (a : BoundaryAction) : a ∈ orderedBy first boundaryActions := by
  rw [(Laws.boundary_acts_perm first).mem_iff]
  cases a with
  | peerMiss j =>
    refine List.mem_append_left _ (List.mem_append_right _ (List.mem_map_of_mem ?_))
    rw [stations_eq]; exact List.mem_finRange j
  | _ => simp [boundaryActions]

/-- The pulse count falls within the schedule unit and the scratch (R51). -/
theorem State.countPulse_frame (s : State) : ∃ m n b, s.countPulse =
    { s with sched := { s.sched with mark := m, pulse := n }, scratch := { s.scratch with brought := b } } := by
  unfold State.countPulse
  split
  · exact ⟨s.sched.mark, s.sched.pulse, s.scratch.brought, rfl⟩
  · split
    · exact ⟨_, _, _, rfl⟩
    · exact ⟨s.sched.mark, _, s.scratch.brought, rfl⟩

theorem State.latchFeedback_frame (s : State) : ∃ c, s.latchFeedback =
    { s with servo := s.latchFeedback.servo, port := { s.port with counters := c } } := by
  unfold State.latchFeedback
  split
  · exact ⟨s.port.counters, rfl⟩
  · exact ⟨_, rfl⟩

/-- What the opening of a cycle leaves for the acts of its boundary (R51, R55, R121). -/
theorem State.opened_frame (s : State) : ∃ a w e p c m n b, s.opened =
    { s with
      time := { s.time with acc := a, cycle := s.time.cycle + 1, mark := false }
      ring := { s.ring with west := { s.ring.west with hold := w }, east := { s.ring.east with hold := e } }
      servo := s.latchFeedback.servo
      port := { s.port with resetPending := p, counters := c }
      sched := { s.sched with mark := m, pulse := n }
      scratch := { s.scratch with brought := b } } := by
  obtain ⟨c, hc⟩ := s.openCycle.latchFeedback_frame
  obtain ⟨m, n, b, hp⟩ := s.openCycle.latchFeedback.countPulse_frame
  have hs : s.openCycle.latchFeedback.servo = s.latchFeedback.servo := by
    unfold State.latchFeedback
    rw [show s.openCycle.servo = s.servo from rfl]
    split <;> rfl
  rw [State.opened, hp, hc, hs]
  exact ⟨_, _, _, _, c, m, n, b, rfl⟩

/-- The latch without a new sample lengthens the stale run (R55). -/
theorem State.latchFeedback_stale (h : s.servo.fresh = false) : s.latchFeedback.servo =
    { s.servo with stale := true, staleRun := min 255 (s.servo.staleRun + 1), fresh := false } := by
  rw [State.latchFeedback, if_neg (by simp [h])]
  rfl

/-- The latch of a new sample (R55). -/
theorem State.latchFeedback_fresh (h : s.servo.fresh = true) : s.latchFeedback.servo =
    { s.servo with feedback := s.servo.latest.getD 0, stale := false, staleRun := 0, fresh := false } := by
  rw [State.latchFeedback, if_pos h]

/-- A boundary computes and presents nothing (R19). -/
theorem State.boundary_sameOutput (first : List BoundaryAction) (s : State) :
    (s.boundary first).drive.sameOutput s.drive := by
  have h := (State.output_of_steady (State.steady_of_quiet (foldl_keeps State.quiet State.act State.act_quiet
    (orderedBy first boundaryActions) s.opened))).trans s.opened_output
  simp only [Drive.output, Prod.mk.injEq] at h
  obtain ⟨h1, h2, h3, -, -, -, -, -, -, h4⟩ := h
  exact ⟨h1, h2, h3, h4⟩

/-! ### FEEDBACK LOSS (R57, R85) -/

/-- A class T request leaves the node tripped, wherever it is not offline (R85). -/
theorem State.request_trips {q : StopRequest} (hq : q.cause.isT = true) (h : s.run.state ≠ .offline) :
    (s.request q).run.state = .tripped := by
  by_cases ht : s.run.state = .tripped
  · exact (State.request_moves (A := noOrder) s q).stays_tripped ht
  · rw [State.request_tripping hq ht h]
    exact (s.countFurther.enterTripped_fields q).1

/-- What stands between the acts of a boundary whose loss check is to trip the node. -/
structure LossRow (s t : State) : Prop where
  online : t.run.state ≠ .offline
  servo : t.servo = s.servo
  items : t.items = s.items
  frozen : t.run.state = .tripped → t.frozen

theorem LossRow.act (h : LossRow s t) (a : BoundaryAction) : LossRow s (t.act a) where
  online := fun e => h.online ((t.act_moves a).offline_iff.mp e)
  servo := (State.servo_of_steady (State.steady_of_quiet (t.act_quiet a))).trans h.servo
  items := (State.items_of_steady (State.steady_of_quiet (t.act_quiet a))).trans h.items
  frozen := (t.act_moves a).keeps_frozen h.frozen

/-- The loss check trips the node, whatever the range check did before it (R57, R58). -/
theorem State.checkFeedback_trips (h : t.run.state ≠ .offline) (hr : t.servo.ready = true)
    (hl : t.items.staleLimit ≤ t.servo.staleRun) :
    t.checkFeedback.run.state = .tripped ∧ .feedbackLoss ∈ t.checkFeedback.scratch.brought := by
  have hv : t.checkRange.servo = t.servo := State.servo_of_steady (State.steady_of_quiet t.checkRange_quiet)
  have hi : t.checkRange.items = t.items := State.items_of_steady (State.steady_of_quiet t.checkRange_quiet)
  have ho : t.checkRange.run.state ≠ .offline := fun e => h ((t.checkRange_moves (A := noOrder)).offline_iff.mp e)
  have hon : t.online = true := by simpa [State.online] using h
  rw [State.checkFeedback, if_pos hon, State.checkLoss, if_pos (by simp [hv, hi, hr, hl])]
  exact ⟨State.request_trips rfl ho, (State.requestLocal_moves (A := noOrder) _ _ _).keeps_brought List.mem_cons_self⟩

/-- Settles O8: the loss check is among the acts, and nothing after it leaves TRIPPED. -/
theorem feedbackLossTrips : Obligations.FeedbackLossTrips := by
  intro s first hc hm ho ht hr hf hl
  obtain ⟨_, _, _, _, _, _, _, _, e⟩ := s.settle.opened_frame
  have hopen : LossRow s.settle.opened s.settle.opened := by
    refine ⟨?_, rfl, rfl, fun h => ?_⟩
    · rw [e]; exact ho
    · rw [e] at h; exact absurd h ht
  have hservo : s.settle.opened.servo = { s.servo with stale := true, staleRun := min 255 (s.servo.staleRun + 1), fresh := false } := by
    rw [e]
    exact State.latchFeedback_stale (s := s.settle) hf
  have hitems : s.settle.opened.items = s.items := s.settle.opened_items
  have hend : ∀ l : List BoundaryAction, .servoChecks ∈ l → (l.foldl State.act s.settle.opened).run.state = .tripped ∧
      Happening.feedbackLoss ∈ (l.foldl State.act s.settle.opened).scratch.brought := fun l hl' =>
    foldl_reaches (P := LossRow s.settle.opened)
      (Q := fun t => t.run.state = .tripped ∧ Happening.feedbackLoss ∈ t.scratch.brought)
      (fun _ a h => h.act a)
      (fun t a _ h => ⟨(t.act_moves a).stays_tripped h.1, (t.act_moves a).keeps_brought h.2⟩)
      (a := .servoChecks)
      (fun t h => State.checkFeedback_trips h.online (by rw [h.servo, hservo]; exact hr)
        (by rw [h.items, h.servo, hservo, hitems]; exact hl))
      hl' hopen
  obtain ⟨h1, h2⟩ := hend _ (mem_boundaryOrder first .servoChecks)
  have hrow : LossRow s.settle.opened (s.settle.boundary first) :=
    List.foldlRecOn (motive := fun t : State => LossRow s.settle.opened t) _ _ hopen fun _ h a _ => h.act a
  obtain ⟨g1, g2, g3, g4, g5, g6⟩ := hrow.frozen h1
  refine ⟨_, ?_, State.boundary_exec hc hm first, h1, g1, ?_, ?_, g4, g5, g6, s.settle.boundary_sameOutput first⟩
  · exact congrArg Host.Outcome.next (State.bringing_boundary hc hm h2)
  · exact fun e => by rw [show (s.settle.boundary first).run.record = none from e] at g3; cases g3
  · exact fun e => by rw [show (s.settle.boundary first).run.stopField = none from e] at g2; cases g2

end Sys2Proof.Machine

namespace Sys2Proof.Machine

variable {s t u v : State} {J : Station → Prop} {m n : Nat}

/-! ### The acts of a boundary that move neither ramps, orders nor run state -/

/-- From t to u nothing has changed that run controller, drive unit, schedule unit or order unit hold, nor what a countdown check
reads of the peers; cycles have been counted for stations of J alone, and at most n events posted. -/
structure Harmless (J : Station → Prop) (n : Nat) (t u : State) : Prop where
  run : u.run = t.run
  drive : u.drive = t.drive
  sched : u.sched = t.sched
  orders : u.orders = t.orders
  stepped : u.scratch.stepped = t.scratch.stepped
  brought : ∀ x ∈ t.scratch.brought, x ∈ u.scratch.brought
  cycle : u.time.cycle = t.time.cycle
  servo : u.servo = t.servo
  items : u.items = t.items
  west : u.ring.west = t.ring.west
  east : u.ring.east = t.ring.east
  peers : ∀ j, (u.peer j).state = (t.peer j).state ∧ (u.peer j).expected = (t.peer j).expected ∧
    (u.peer j).shares = (t.peer j).shares ∧ (u.peer j).last = (t.peer j).last
  cycles : ∀ j, ¬ J j → (u.peer j).cycles = (t.peer j).cycles
  events : ∃ es, u.port.events = t.port.events ++ es ∧ es.length ≤ n
  tally : u.tally = t.tally

theorem Harmless.refl (t : State) : Harmless J n t t :=
  ⟨rfl, rfl, rfl, rfl, rfl, fun _ h => h, rfl, rfl, rfl, rfl, rfl, fun _ => ⟨rfl, rfl, rfl, rfl⟩,
    fun _ _ => rfl, ⟨[], by simp, Nat.zero_le n⟩, rfl⟩

theorem Harmless.trans (h : Harmless J m t u) (g : Harmless J n u v) : Harmless J (m + n) t v where
  run := g.run.trans h.run
  drive := g.drive.trans h.drive
  sched := g.sched.trans h.sched
  orders := g.orders.trans h.orders
  stepped := g.stepped.trans h.stepped
  brought x hx := g.brought x (h.brought x hx)
  cycle := g.cycle.trans h.cycle
  servo := g.servo.trans h.servo
  items := g.items.trans h.items
  west := g.west.trans h.west
  east := g.east.trans h.east
  peers j := by
    obtain ⟨h1, h2, h3, h4⟩ := h.peers j
    obtain ⟨g1, g2, g3, g4⟩ := g.peers j
    exact ⟨g1.trans h1, g2.trans h2, g3.trans h3, g4.trans h4⟩
  cycles j hj := (g.cycles j hj).trans (h.cycles j hj)
  events := by
    obtain ⟨es, h1, h2⟩ := h.events
    obtain ⟨fs, g1, g2⟩ := g.events
    exact ⟨es ++ fs, by rw [g1, h1, List.append_assoc], by rw [List.length_append]; omega⟩
  tally := g.tally.trans h.tally

theorem Harmless.mono (h : Harmless J m t u) (hn : m ≤ n) : Harmless J n t u := by
  obtain ⟨es, h1, h2⟩ := h.events
  exact { h with events := ⟨es, h1, h2.trans hn⟩ }

/-- A posting adds one event at the most. -/
theorem State.post_harmless (k : EventKind) (a b : Word) (t : State) : Harmless J 1 t (t.post k a b) where
  run := by simp
  drive := by simp
  sched := by simp
  orders := by simp
  stepped := by simp
  brought := by simp
  cycle := by simp
  servo := by simp
  items := State.items_of_steady (State.steady_of_quiet (t.post_quiet k a b))
  west := by simp
  east := by simp
  peers j := by simp [State.peer]
  cycles j _ := by simp [State.peer]
  events := by
    rcases t.post_cases k a b with ⟨-, e⟩ | ⟨-, e⟩ <;> rw [e]
    · exact ⟨_, rfl, le_refl 1⟩
    · exact ⟨[], by simp [State.bump, State.count], Nat.zero_le 1⟩
  tally := t.post_tally k a b

theorem State.bump_harmless (c : Counter) (t : State) (h : ∀ d ∈ tallied, d.place ≠ c.place) : Harmless J 0 t (t.bump c) :=
  { Harmless.refl (J := J) (n := 0) t with tally := t.bump_tally c h }

theorem State.bring_harmless (x : Happening) (t : State) : Harmless J 0 t (t.bring x) :=
  { Harmless.refl (J := J) (n := 0) t with brought := fun _ h => List.mem_cons_of_mem _ h }

theorem State.onLane_harmless (l : Lane) (f : LaneRec → LaneRec) (t : State) : Harmless J 0 t (t.onLane l f) :=
  { Harmless.refl (J := J) (n := 0) t with west := by cases l <;> rfl, east := by cases l <;> rfl }

theorem State.examineLane_harmless (l : Lane) (t : State) : Harmless J 1 t (t.examineLane l) := by
  simp only [State.examineLane]
  split
  · exact (t.onLane_harmless l _).mono (Nat.zero_le 1)
  · split
    · exact (((t.onLane_harmless l _).trans (State.onLane_harmless l _ _)).trans (State.bring_harmless _ _)).trans
        (State.post_harmless _ _ _ _)
    · exact (t.onLane_harmless l _).mono (Nat.zero_le 1)

theorem State.examineLanes_harmless (t : State) : Harmless J 2 t t.examineLanes := by
  unfold State.examineLanes
  split
  · exact (t.examineLane_harmless .a).trans (State.examineLane_harmless .b _)
  · exact .refl t

theorem State.placeOwn_harmless (f : Frame) (l : Lane) (t : State) : Harmless J 0 t (t.placeOwn f l) := by
  have hq : ∀ v : State, Harmless J 0 v (v.bump (.queueFull l)) := fun v => v.bump_harmless _ (by cases l <;> decide)
  simp only [State.placeOwn]
  split
  · exact t.bump_harmless _ (by cases l <;> decide)
  · split
    · exact (t.onLane_harmless l _).trans (hq _)
    · exact t.onLane_harmless l _

theorem State.buildFrame_harmless (t : State) : Harmless J 0 t t.buildFrame := by
  unfold State.buildFrame
  split
  · exact (t.placeOwn_harmless t.ownFrame .a).trans (State.placeOwn_harmless _ _ _)
  · exact .refl t

theorem State.computeTrim_harmless (t : State) : Harmless J 0 t t.computeTrim := by
  have h : ∀ x : Time, x.cycle = t.time.cycle → Harmless J 0 t { t with time := x } := fun x hx =>
    { Harmless.refl (J := J) (n := 0) t with cycle := hx }
  simp only [State.computeTrim]
  split
  · split
    · exact h _ rfl
    · exact h _ rfl
  · exact .refl t

/-! ### A boundary at which nothing sends a request -/

/-- The servo checks of the boundary send no request (R57, R58). -/
def State.servoSafe (t : State) : Prop :=
  t.servo.ready = false ∨ (inFeedbackRange t.items t.servo.feedback = true ∧ t.servo.staleRun < t.items.staleLimit)

/-- Nothing sends a request in the acts l that the boundary has left (R57, R58, R91, R143). -/
structure CalmFor (l : List BoundaryAction) (t : State) : Prop where
  servo : t.servoSafe
  sides : ¬ t.cutOff
  misses : ∀ j, .peerMiss j ∈ l → ¬ t.atMissLimit j

/-- The servo checks of a safe servo do no more than count (R58). -/
theorem State.checkFeedback_harmless (h : t.servoSafe) : Harmless J 0 t t.checkFeedback := by
  have hr : Harmless J 0 t t.checkRange ∧ (t.checkRange.servo = t.servo ∧ t.checkRange.items = t.items) := by
    refine ⟨?_, State.servo_of_steady (State.steady_of_quiet t.checkRange_quiet),
      State.items_of_steady (State.steady_of_quiet t.checkRange_quiet)⟩
    simp only [State.checkRange]
    rcases h with h | ⟨h, -⟩
    · split
      · exact .refl t
      · rw [if_neg (by simp [h])]
        exact t.bump_harmless _ (by decide)
    · rw [if_pos h]
      exact .refl t
  have hl : t.checkRange.checkLoss = t.checkRange := by
    rw [State.checkLoss, if_neg]
    rw [hr.2.1, hr.2.2]
    rcases h with h | ⟨-, h⟩
    · simp [h]
    · simp; omega
  unfold State.checkFeedback
  split
  · rw [hl]; exact hr.1
  · exact .refl t

/-- A miss of a station that is not at its limit counts its cycles alone (R143). -/
theorem State.countMiss_harmless {j : Station} (h : ¬ t.atMissLimit j) (hJ : J j) : Harmless J 0 t (t.countMiss j) := by
  have hp : Harmless J 0 t (t.onPeer j (fun p => { p with cycles := min 255 (p.cycles + 1) })) :=
    { Harmless.refl (J := J) (n := 0) t with
      peers := fun k => by
        by_cases hk : k = j
        · subst hk; simp
        · simp [hk]
      cycles := fun k hk => by
        rw [t.onPeer_peer_other j k _ (fun e => hk (e ▸ hJ))] }
  simp only [State.countMiss]
  split
  · rw [if_neg]
    · exact hp
    · simp only [State.onPeer_peer]
      exact h
  · exact .refl t

theorem State.isolatedTest_of_sides (h : ¬ t.cutOff) : t.isolatedTest = t := by
  rw [State.isolatedTest, if_neg]
  intro hi
  simp only [State.isolated, Bool.and_eq_true, beq_iff_eq, bne_iff_ne] at hi
  exact h ⟨hi.1.1.1, hi.1.1.2, hi.1.2⟩

/-- The acts that are harmless at a calm boundary. -/
def plainAct : BoundaryAction → Bool
  | .servoChecks => true
  | .peerMiss _ => true
  | .ringClosure => true
  | .isolated => true
  | .trim => true
  | .frameBuild => true
  | _ => false

/-- How many events a plain act posts at the most: RING OPEN of two lanes (R182). -/
def actEvents : BoundaryAction → Nat
  | .ringClosure => 2
  | _ => 0

/-- A plain act of a calm boundary is harmless. -/
theorem CalmFor.act_harmless {a : BoundaryAction} {l : List BoundaryAction} (h : CalmFor (a :: l) t) (ha : plainAct a = true) :
    Harmless (fun j => a = .peerMiss j) (actEvents a) t (t.act a) := by
  cases a with
  | servoChecks => exact State.checkFeedback_harmless h.servo
  | peerMiss j => exact State.countMiss_harmless (h.misses j List.mem_cons_self) rfl
  | ringClosure => exact t.examineLanes_harmless
  | isolated => rw [show t.act .isolated = t.isolatedTest from rfl, State.isolatedTest_of_sides h.sides]; exact .refl t
  | trim => exact t.computeTrim_harmless
  | frameBuild => exact t.buildFrame_harmless
  | rampStep | assemblyTest | countdownCheck | orders => cases ha

/-- What is left of a calm boundary stays calm over acts that leave servo, sides and peers, but for the cycles counted. -/
theorem CalmFor.of_harmless {a : BoundaryAction} {l : List BoundaryAction} (h : CalmFor (a :: l) t) (hn : a ∉ l)
    (g : Harmless (fun j => a = .peerMiss j) n t u) : CalmFor l u where
  servo := by unfold State.servoSafe; rw [g.servo, g.items]; exact h.servo
  sides := by unfold State.cutOff; rw [g.west, g.east, g.items]; exact h.sides
  misses j hj := by
    have hne : ¬ a = .peerMiss j := fun e => hn (e ▸ hj)
    unfold State.atMissLimit
    rw [(g.peers j).1, g.items, g.cycles j hne]
    exact h.misses j (List.mem_cons_of_mem a hj)

end Sys2Proof.Machine

namespace Sys2Proof.Machine

variable {s t u : State} {a : BoundaryAction} {l : List BoundaryAction}

/-! ### The acts that move ramps, orders and run state -/

/-- What the acts of ramps, orders, assembly and countdown leave: peer table and ring ports. -/
def State.rigid (t : State) : Vector Peer 16 × Ring := (t.peers, t.ring)

theorem State.rigid_of_aside (h : s.Aside t) : t.rigid = s.rigid := by
  unfold State.rigid; rw [h.peers, h.ring]

theorem State.changeState_rigid (r : RunState) (t : State) : (t.changeState r).rigid = t.rigid :=
  State.rigid_of_aside (State.changeState_aside r t)

theorem State.post_rigid (k : EventKind) (a b : Word) (t : State) : (t.post k a b).rigid = t.rigid :=
  State.rigid_of_aside (State.post_aside k a b t)

theorem State.enterStandby_rigid (t : State) : t.enterStandby.rigid = t.rigid :=
  State.rigid_of_aside ((State.changeState_aside _ t).trans (State.readyTest_aside _))

theorem State.fetch_rigid (t : State) : t.fetch.rigid = t.rigid := by
  obtain ⟨b, a, e⟩ := t.fetch_frame
  rw [e]; rfl

theorem State.rewind_rigid (t : State) : t.rewind.rigid = t.rigid := by
  unfold State.rewind
  split <;> exact State.fetch_rigid _

theorem State.takeReport_rigid (r : RampReport) (t : State) : (t.takeReport r).rigid = t.rigid := by
  cases r with
  | nothing => rfl
  | rampAtZero =>
    simp only [State.takeReport]
    split
    · exact (State.changeState_rigid _ _).trans rfl
    · rfl
  | descentAtZero =>
    simp only [State.takeReport]
    split
    · exact (State.rewind_rigid _).trans ((State.changeState_rigid _ _).trans rfl)
    · rfl

theorem State.stepRunRamp_rigid (t : State) : t.stepRunRamp.rigid = t.rigid :=
  (State.takeReport_rigid _ t.runStepped).trans rfl

theorem State.firstStep_rigid (t : State) : t.firstStep.rigid = t.rigid := by
  unfold State.firstStep
  split
  · exact t.stepRunRamp_rigid
  · rfl

theorem State.beginRamp_rigid (z : Bool) (x n : Nat) (t : State) : (t.beginRamp z x n).rigid = t.rigid := by
  unfold State.beginRamp
  split
  · rfl
  · exact State.firstStep_rigid _

theorem State.stepRamps_rigid (t : State) : t.stepRamps.rigid = t.rigid := by
  unfold State.stepRamps
  split
  · rfl
  · exact State.stepRunRamp_rigid _

theorem State.countdownCheck_rigid (t : State) : t.countdownCheck.rigid = t.rigid := by
  unfold State.countdownCheck
  split
  · split
    · exact (State.rigid_of_aside (State.returnToReady_aside _)).trans (Eq.trans rfl (t.post_rigid _ _ _))
    · rfl
  · rfl

theorem State.assemblyTest_rigid (t : State) : t.assemblyTest.rigid = t.rigid := by
  simp only [State.assemblyTest]
  split
  · split
    · split
      · exact (State.enterStandby_rigid _).trans rfl
      · rfl
    · rfl
  · rfl

theorem State.noteApplied_aside (o : Order) (t : State) : t.Aside (t.noteApplied o) :=
  (t.bump_aside _).trans (State.post_aside _ _ _ _)

theorem State.declareInapplicable_aside (o : Order) (t : State) : t.Aside (t.declareInapplicable o) :=
  (t.bump_aside _).trans (State.post_aside _ _ _ _)

theorem State.settleOrder_rigid (o : Order) (t : State) : (t.settleOrder o).rigid = t.rigid := by
  have hi : ∀ v : State, (v.declareInapplicable o).rigid = v.rigid := fun v =>
    State.rigid_of_aside (v.declareInapplicable_aside o)
  have hn : ∀ (v : State) (r : RunState), ((v.noteApplied o).changeState r).rigid = v.rigid := fun v r =>
    (State.rigid_of_aside (State.changeState_aside _ _)).trans (State.rigid_of_aside (v.noteApplied_aside o))
  have hl : (t.applyLevel o).rigid = t.rigid :=
    Eq.trans (b := (t.noteApplied o).rigid) rfl (State.rigid_of_aside (t.noteApplied_aside o))
  unfold State.settleOrder
  split
  · simp only [State.takeStart]
    split
    · split
      · exact (State.beginRamp_rigid _ _ _ _).trans (Eq.trans (b := ((t.countdownCheck.noteApplied o).changeState .run).rigid) rfl
          ((hn _ _).trans t.countdownCheck_rigid))
      · exact (hi _).trans t.countdownCheck_rigid
    · exact hi t
  · exact (State.beginRamp_rigid _ _ _ _).trans (hn t _)
  · exact (State.beginRamp_rigid _ _ _ _).trans (Eq.trans (b := ((t.noteApplied o).changeState .run).rigid) rfl (hn t _))
  · exact hl
  · exact hl
  · exact hl
  · exact hi t

theorem State.takeOrder_rigid (o : Order) (t : State) : (t.takeOrder o).rigid = t.rigid :=
  State.settleOrder_rigid o (t.retireOrder o)

theorem State.takeDueOrders_rigid (t : State) : t.takeDueOrders.rigid = t.rigid := by
  unfold State.takeDueOrders
  split
  · exact foldl_keeps State.rigid _ (fun v o => State.takeOrder_rigid o v) _ t
  · rfl

/-- The acts that are not plain leave peers and ring. -/
theorem State.act_rigid (ha : plainAct a = false) (t : State) : (t.act a).rigid = t.rigid := by
  cases a with
  | rampStep => exact t.stepRamps_rigid
  | assemblyTest => exact t.assemblyTest_rigid
  | countdownCheck => exact t.countdownCheck_rigid
  | orders => exact t.takeDueOrders_rigid
  | servoChecks | peerMiss | ringClosure | isolated | trim | frameBuild => cases ha

/-! ### The course of a calm boundary -/

/-- Every act of a calm boundary leaves it calm for those to come. -/
theorem CalmFor.act (h : CalmFor (a :: l) t) (hn : a ∉ l) : CalmFor l (t.act a) := by
  cases ha : plainAct a
  · have hs := State.servo_of_steady (State.steady_of_quiet (t.act_quiet a))
    have hi : (t.act a).items = t.items := State.items_of_steady (State.steady_of_quiet (t.act_quiet a))
    have hg := t.act_rigid ha
    have hp : (t.act a).peers = t.peers := congrArg Prod.fst hg
    have hr : (t.act a).ring = t.ring := congrArg Prod.snd hg
    refine ⟨?_, ?_, fun j hj => ?_⟩
    · unfold State.servoSafe; rw [hs, hi]; exact h.servo
    · unfold State.cutOff; rw [hr, hi]; exact h.sides
    · unfold State.atMissLimit State.peer
      rw [hp, hi]
      exact h.misses j (List.mem_cons_of_mem a hj)
  · exact h.of_harmless hn (h.act_harmless ha)

/-- What every act of a calm boundary keeps, with the acts to come at hand, stands at its end. -/
theorem CalmFor.foldl {P : List BoundaryAction → State → Prop}
    (step : ∀ a l t, a ∉ l → CalmFor (a :: l) t → P (a :: l) t → P l (t.act a)) {l : List BoundaryAction} (hl : l.Nodup)
    {t : State} (hc : CalmFor l t) (hp : P l t) : P [] (l.foldl State.act t) := by
  induction l generalizing t with
  | nil => exact hp
  | cons a l ih =>
    obtain ⟨hn, hl⟩ := List.nodup_cons.mp hl
    exact ih hl (hc.act hn) (step a l t hn hc hp)

/-- A stage of a calm boundary: nothing but the stepping of the ramps and the due orders ends it. -/
structure Stage (X : State → Prop) : Prop where
  harmless : ∀ {J : Station → Prop} {n : Nat} {t u : State}, Harmless J n t u → X t → X u
  check : ∀ {t : State}, X t → t.countdownCheck = t
  assembly : ∀ {t : State}, X t → t.assemblyTest = t

theorem Stage.act {X : State → Prop} (hX : Stage X) (hc : CalmFor (a :: l) t) (h : X t) (h1 : a ≠ .orders) (h2 : a ≠ .rampStep) :
    X (t.act a) := by
  cases ha : plainAct a
  · cases a with
    | assemblyTest => rw [show t.act .assemblyTest = t from hX.assembly h]; exact h
    | countdownCheck => rw [show t.act .countdownCheck = t from hX.check h]; exact h
    | orders => exact absurd rfl h1
    | rampStep => exact absurd rfl h2
    | servoChecks | peerMiss | ringClosure | isolated | trim | frameBuild => cases ha
  · exact hX.harmless (hc.act_harmless ha) h

/-- The stage that stands with the acts l to come: `A` before orders and stepping, `B` after the stepping alone, `C` after the
orders alone, `D` after both. -/
def stageAt (A B C D : State → Prop) (l : List BoundaryAction) (t : State) : Prop :=
  (.orders ∈ l → .rampStep ∈ l → A t) ∧ (.orders ∈ l → .rampStep ∉ l → B t) ∧ (.orders ∉ l → .rampStep ∈ l → C t) ∧
    (.orders ∉ l → .rampStep ∉ l → D t)

/-- Whatever the order of its acts, a calm boundary passes through its stages from `A` to `D`. -/
theorem CalmFor.stages {A B C D : State → Prop} (hA : Stage A) (hB : Stage B) (hC : Stage C) (hD : Stage D)
    (hAB : ∀ t, A t → B t.stepRamps) (hCD : ∀ t, C t → D t.stepRamps) (hAC : ∀ t, A t → C t.takeDueOrders)
    (hBD : ∀ t, B t → D t.takeDueOrders) {first : List BoundaryAction} (hc : CalmFor (orderedBy first boundaryActions) t)
    (ht : A t) : D ((orderedBy first boundaryActions).foldl State.act t) := by
  have step : ∀ a l t, a ∉ l → CalmFor (a :: l) t → stageAt A B C D (a :: l) t → stageAt A B C D l (t.act a) := by
    rintro a l t hn hc ⟨h1, h2, h3, h4⟩
    by_cases ho : a = .orders
    · subst ho
      exact ⟨fun h => absurd h hn, fun h => absurd h hn, fun _ hr => hAC t (h1 List.mem_cons_self (List.mem_cons_of_mem _ hr)),
        fun _ hr => hBD t (h2 List.mem_cons_self (by simpa using hr))⟩
    · by_cases hr : a = .rampStep
      · subst hr
        exact ⟨fun _ h => absurd h hn, fun h _ => hAB t (h1 (List.mem_cons_of_mem _ h) List.mem_cons_self),
          fun _ h => absurd h hn, fun h _ => hCD t (h3 (by simpa using h) List.mem_cons_self)⟩
      · have e1 : BoundaryAction.orders ∈ a :: l ↔ BoundaryAction.orders ∈ l := by simp [Ne.symm ho]
        have e2 : BoundaryAction.rampStep ∈ a :: l ↔ BoundaryAction.rampStep ∈ l := by simp [Ne.symm hr]
        rw [e1, e2] at h1 h2 h3 h4
        exact ⟨fun x y => hA.act hc (h1 x y) ho hr, fun x y => hB.act hc (h2 x y) ho hr, fun x y => hC.act hc (h3 x y) ho hr,
          fun x y => hD.act hc (h4 x y) ho hr⟩
  have hl : (orderedBy first boundaryActions).Nodup := (Laws.boundary_acts_perm first).nodup_iff.mpr Laws.boundaryActions_nodup
  have h0 : stageAt A B C D (orderedBy first boundaryActions) t :=
    ⟨fun _ _ => ht, fun _ h => absurd (mem_boundaryOrder first _) h, fun h => absurd (mem_boundaryOrder first _) h,
      fun h => absurd (mem_boundaryOrder first _) h⟩
  exact (CalmFor.foldl step hl hc h0).2.2.2 List.not_mem_nil List.not_mem_nil

/-- A calm state opens a calm boundary (R55, R57, R58). -/
theorem State.calm_opened (h : s.calm) (l : List BoundaryAction) : CalmFor l s.settle.opened := by
  obtain ⟨h1, h2, h3⟩ := h
  obtain ⟨_, _, _, _, _, _, _, _, e⟩ := s.settle.opened_frame
  refine ⟨?_, ?_, fun j _ => ?_⟩
  · have hs : s.settle.opened.servo = s.settle.latchFeedback.servo := by rw [e]
    have hi : s.settle.opened.items = s.items := s.settle.opened_items
    unfold State.servoSafe
    rw [hs, hi]
    rcases h1 with h1 | ⟨h1, hf, hr⟩
    · refine .inl ?_
      cases hf : s.servo.fresh
      · rw [State.latchFeedback_stale (s := s.settle) hf]; exact h1
      · rw [State.latchFeedback_fresh (s := s.settle) hf]; exact h1
    · rw [State.latchFeedback_fresh (s := s.settle) hf]
      exact .inr ⟨hr, h1⟩
  · rw [e]; exact h2
  · rw [e]; exact h3 j

end Sys2Proof.Machine

namespace Sys2Proof.Machine

variable {s t u v : State} {a : BoundaryAction}

/-! ### Acts with nothing to do, and orders out of place -/

theorem State.countdownCheck_of_ne (h : t.run.state ≠ .countdown) : t.countdownCheck = t := if_neg h

theorem State.assemblyTest_of_ne (h : t.run.state ≠ .assembly) : t.assemblyTest = t := if_neg h

/-- The ramps step with the values before them at hand, then R's report is taken (R22, R25). -/
theorem State.stepRamps_eq (h1 : t.run.state ≠ .offline) (h2 : t.run.state ≠ .tripped) :
    t.stepRamps = t.levelStepped.stepRunRamp := by
  rw [State.stepRamps, if_neg (by rintro (h | h) <;> contradiction)]
  rfl

theorem State.levelStepped_runRamp (t : State) : t.levelStepped.drive.runRamp = t.drive.runRamp ∧
    t.levelStepped.drive.ramp = t.drive.ramp := by
  unfold State.levelStepped
  rw [Drive.stepLevel_frame]
  exact ⟨rfl, rfl⟩

/-- Without an R descriptor the step of R does nothing and reports nothing. -/
theorem State.stepRunRamp_of_none (h : t.drive.runRamp = none) : t.stepRunRamp = t := by
  rw [State.stepRunRamp_eq, t.runStepped_of_none h, Drive.stepRun_none h]
  rfl

/-- Without due orders their act does nothing (R113). -/
theorem State.takeDueOrders_of_none (h : t.orders.pending.filter t.due = []) : t.takeDueOrders = t := by
  unfold State.takeDueOrders
  split
  · rw [h]; rfl
  · rfl

/-- An order that the run state at hand does not allow (R118). -/
def State.unfit (t : State) (o : Order) : Prop :=
  match o.kind with
  | .start => ¬ (t.run.state = .countdown ∧ t.run.countdown = some o.id)
  | .pause => t.run.state ≠ .run
  | .resume => t.run.state ≠ .paused
  | .level => t.run.state ≠ .run ∧ t.run.state ≠ .pausing ∧ t.run.state ≠ .paused

/-- Such an order is declared inapplicable (R118). -/
theorem State.settleOrder_unfit {o : Order} (h : t.unfit o) : t.settleOrder o = t.declareInapplicable o := by
  unfold State.unfit at h
  cases hk : o.kind <;> rw [hk] at h
  case start => simp only [State.settleOrder, hk, State.takeStart, if_neg h]
  all_goals
    unfold State.settleOrder
    rw [hk]
    cases hs : t.run.state <;> simp_all

/-! ### The acts of a boundary in STOPPING and STOPPED -/

/-- From t to u run state, stop field, trip line, drive unit and ring ports stand. -/
structure Beside (t u : State) : Prop where
  state : u.run.state = t.run.state
  stopField : u.run.stopField = t.run.stopField
  trip : u.run.trip = t.run.trip
  drive : u.drive = t.drive
  west : u.ring.west = t.ring.west
  east : u.ring.east = t.ring.east

theorem Beside.refl (t : State) : Beside t t := ⟨rfl, rfl, rfl, rfl, rfl, rfl⟩

theorem Beside.trans (h : Beside t u) (g : Beside u v) : Beside t v :=
  ⟨g.1.trans h.1, g.2.trans h.2, g.3.trans h.3, g.4.trans h.4, g.5.trans h.5, g.6.trans h.6⟩

theorem Harmless.beside {J : Station → Prop} {n : Nat} (h : Harmless J n t u) : Beside t u :=
  ⟨by rw [h.run], by rw [h.run], by rw [h.run], h.drive, h.west, h.east⟩

theorem State.Aside.beside (h : t.Aside u) (hr : u.run = t.run) : Beside t u :=
  ⟨by rw [hr], by rw [hr], by rw [hr], h.drive, by rw [h.ring], by rw [h.ring]⟩

section Stopping
variable (h : t.run.state = .stopping ∨ t.run.state = .stopped)
include h

/-- A request of class S is counted (R82). -/
theorem State.requestLocal_beside {c : Cause} (hc : c.isT = false) (n : Nat) : Beside t (t.requestLocal c n) := by
  obtain ⟨ha, h1, h2, h3, -⟩ := State.counted (q := t.localRequest c n) hc h
  exact ⟨h1, h2, h3, ha.drive, congrArg Ring.west ha.ring, congrArg Ring.east ha.ring⟩

theorem State.rosterLoss_beside {c : Cause} (hc : c.isT = false) (j : Station) (b : Bool) : Beside t (t.rosterLoss j c b) := by
  have hi : (if b && !t.rosterComplete then t.reportIncomplete else t) = t := by
    have hr : t.reportIncomplete = t := by
      unfold State.reportIncomplete
      rcases h with h | h <;> rw [h]
    rw [hr, ite_self]
  simp only [State.rosterLoss, hi]
  split
  · split
    · exact State.requestLocal_beside h hc _
    · exact State.requestLocal_beside h hc _
    · exact State.requestLocal_beside h hc _
    · exact State.requestLocal_beside h hc _
    · exact .refl t
  · exact .refl t

theorem State.countMiss_beside (j : Station) : Beside t (t.countMiss j) := by
  have hp : ∀ (v : State) p c, Beside v (v.setPeerState j p c) := fun v p c => by
    simp only [State.setPeerState]
    split
    · exact .refl v
    · exact Beside.trans (u := v.onPeer j fun x => { x with state := p }) ⟨rfl, rfl, rfl, rfl, rfl, rfl⟩
        ((State.post_aside _ _ _ _).beside (by simp))
  have hm : ∀ v : State, (v.run.state = .stopping ∨ v.run.state = .stopped) → Beside v (v.movePeer j .silent 3 .peerLost) := by
    intro v hv
    simp only [State.movePeer]
    split
    · exact (hp v _ _).trans (State.rosterLoss_beside (by rw [(hp v _ _).state]; exact hv) rfl j _)
    · exact hp v _ _
  simp only [State.countMiss]
  split
  · split
    · exact Beside.trans (u := ((t.onPeer j _).bump .peerSilent).bring (.peerSilent j)) ⟨rfl, rfl, rfl, rfl, rfl, rfl⟩ (hm _ h)
    · exact ⟨rfl, rfl, rfl, rfl, rfl, rfl⟩
  · exact .refl t

theorem State.takeOrder_beside (o : Order) : Beside t (t.takeOrder o) := by
  have hu : (t.retireOrder o).unfit o := by
    have hr : (t.retireOrder o).run = t.run := rfl
    unfold State.unfit
    rw [hr]
    rcases h with h | h <;> rw [h] <;> cases o.kind <;> simp
  rw [State.takeOrder, State.settleOrder_unfit hu]
  exact Beside.trans (u := t.retireOrder o) ⟨rfl, rfl, rfl, rfl, rfl, rfl⟩
    ((State.declareInapplicable_aside o _).beside (by simp))

theorem State.takeDueOrders_beside : Beside t t.takeDueOrders := by
  unfold State.takeDueOrders
  split
  · refine List.foldlRecOn (motive := fun v : State => Beside t v) _ _ (.refl t) fun v hv o _ => ?_
    exact hv.trans (State.takeOrder_beside (by rw [hv.state]; exact h) o)
  · exact .refl t

/-- Every act but the stepping of the ramps, of a boundary with a safe servo and a side not DOWN. -/
theorem State.act_beside (hv : t.servoSafe) (hs : ¬ t.cutOff) (ha : a ≠ .rampStep) : Beside t (t.act a) := by
  have hc : (∀ j, a ≠ .peerMiss j) → CalmFor [a] t := fun hj =>
    ⟨hv, hs, fun j hm => absurd (List.mem_singleton.mp hm).symm (hj j)⟩
  cases a with
  | peerMiss j => exact State.countMiss_beside h j
  | orders => exact State.takeDueOrders_beside h
  | rampStep => exact absurd rfl ha
  | assemblyTest =>
    rw [show t.act .assemblyTest = t from State.assemblyTest_of_ne (by rcases h with h | h <;> rw [h] <;> decide)]
    exact .refl t
  | countdownCheck =>
    rw [show t.act .countdownCheck = t from State.countdownCheck_of_ne (by rcases h with h | h <;> rw [h] <;> decide)]
    exact .refl t
  | servoChecks | ringClosure | isolated | trim | frameBuild => exact ((hc (fun j => nofun)).act_harmless rfl).beside

end Stopping

/-! ### The end of the STOP descent (R24, R80) -/

/-- What stands between the acts of a boundary at which the STOP descent brings R to 0: STOPPING before the ramps step, STOPPED
after. -/
structure StopRow (s t : State) : Prop where
  safe : t.servoSafe
  sides : ¬ t.cutOff
  trip : t.run.trip = s.run.trip
  stopField : t.run.stopField = s.run.stopField
  state : (t.run.state = .stopping ∧ t.drive.runRamp = some .descent ∧ t.drive.ramp ≤ t.items.stopStep) ∨
    (t.run.state = .stopped ∧ t.drive.ramp = 0 ∧ t.drive.runRamp = none ∧ .rampEnd ∈ t.scratch.brought)

/-- The last step of the STOP descent reports its end, and the node is STOPPED (R24, R80). -/
theorem State.stepRamps_descent (hs : t.run.state = .stopping) (hd : t.drive.runRamp = some .descent)
    (hr : t.drive.ramp ≤ t.items.stopStep) : t.stepRamps.run.state = .stopped ∧ t.stepRamps.drive.ramp = 0 ∧
      t.stepRamps.drive.runRamp = none ∧ t.stepRamps.run.trip = t.run.trip ∧ t.stepRamps.run.stopField = t.run.stopField ∧
      .rampEnd ∈ t.stepRamps.scratch.brought := by
  obtain ⟨h1, h2⟩ := t.levelStepped_runRamp
  have hz : t.drive.ramp - t.items.stopStep = 0 := by omega
  have hstep : t.levelStepped.drive.stepRun t.levelStepped.items.stopStep =
      ({ t.levelStepped.drive with ramp := 0, runRamp := none }, .descentAtZero) := by
    unfold Drive.stepRun
    rw [h1, hd]
    simp only [h2, show t.levelStepped.items.stopStep = t.items.stopStep from rfl, hz, if_true]
  have he : t.stepRamps = ((t.levelStepped.runStepped.bring .rampEnd).changeState .stopped).rewind := by
    rw [State.stepRamps_eq (by rw [hs]; decide) (by rw [hs]; decide), State.stepRunRamp_eq, hstep]
    exact if_pos hs
  obtain ⟨g1, g2, -, g3, -, g4, -, -, g5, -⟩ :=
    State.gear_eq_iff.mp ((t.levelStepped.runStepped.bring .rampEnd).changeState .stopped).rewind_gear
  have hdr : ((t.levelStepped.runStepped.bring .rampEnd).changeState .stopped).drive =
      { t.levelStepped.drive with ramp := 0, runRamp := none } := by
    rw [State.changeState_drive]
    exact congrArg Prod.fst hstep
  rw [he, g1, g2, g3, g4, g5, hdr]
  refine ⟨rfl, rfl, rfl, ?_, ?_, ?_⟩
  · rw [State.changeState_trip]; rfl
  · rw [State.changeState_stopField]; rfl
  · rw [State.changeState_scratch]; exact List.mem_cons_self

/-- Without an R descriptor the stepping of the ramps changes L alone. -/
theorem State.stepRamps_of_none (h1 : t.run.state ≠ .offline) (h2 : t.run.state ≠ .tripped) (h : t.drive.runRamp = none) :
    t.stepRamps = t.levelStepped := by
  rw [State.stepRamps_eq h1 h2, State.stepRunRamp_of_none (t.levelStepped_runRamp.1.trans h)]

theorem StopRow.act (h : StopRow s t) (a : BoundaryAction) :
    StopRow s (t.act a) ∧ (t.run.state = .stopped ∨ a = .rampStep → (t.act a).run.state = .stopped) := by
  have hq := State.steady_of_quiet (t.act_quiet a)
  have hv : (t.act a).servo = t.servo := State.servo_of_steady hq
  have hi : (t.act a).items = t.items := State.items_of_steady hq
  have hsafe : (t.act a).servoSafe := by unfold State.servoSafe; rw [hv, hi]; exact h.safe
  by_cases ha : a = .rampStep
  · subst ha
    have hring : (t.act .rampStep).ring = t.ring := congrArg Prod.snd t.stepRamps_rigid
    have hsides : ¬ (t.act .rampStep).cutOff := by unfold State.cutOff; rw [hring, hi]; exact h.sides
    rcases h.state with ⟨g1, g2, g3⟩ | ⟨g1, g2, g3, g4⟩
    · obtain ⟨k1, k2, k3, k4, k5, k6⟩ := State.stepRamps_descent g1 g2 g3
      exact ⟨⟨hsafe, hsides, k4.trans h.trip, k5.trans h.stopField, .inr ⟨k1, k2, k3, k6⟩⟩, fun _ => k1⟩
    · have he : t.act .rampStep = t.levelStepped :=
        State.stepRamps_of_none (by rw [g1]; decide) (by rw [g1]; decide) g3
      rw [he] at hsafe hsides ⊢
      obtain ⟨k1, k2⟩ := t.levelStepped_runRamp
      exact ⟨⟨hsafe, hsides, h.trip, h.stopField, .inr ⟨g1, k2.trans g2, k1.trans g3, g4⟩⟩, fun _ => g1⟩
  · have hb := State.act_beside (h.state.imp (·.1) (·.1)) h.safe h.sides ha
    refine ⟨⟨hsafe, ?_, hb.trip.trans h.trip, hb.stopField.trans h.stopField, ?_⟩,
      fun g => g.elim hb.state.trans (fun e => absurd e ha)⟩
    · unfold State.cutOff; rw [hb.west, hb.east, hi]; exact h.sides
    · rw [hb.state, hb.drive, hi]
      exact h.state.imp_right fun ⟨g1, g2, g3, g4⟩ => ⟨g1, g2, g3, (t.act_moves a).keeps_brought g4⟩

theorem StopRow.opened (hs : s.run.state = .stopping) (hd : s.drive.runRamp = some .descent)
    (hr : s.drive.ramp ≤ s.items.stopStep) (hl : 0 < s.items.staleLimit) (hf : s.servo.fresh = true)
    (h1 : s.items.fbMin ≤ s.servo.latest.getD 0) (h2 : s.servo.latest.getD 0 ≤ s.items.fbMax) (hc : ¬ s.cutOff) :
    StopRow s s.settle.opened := by
  have hi : s.settle.opened.items = s.items := s.settle.opened_items
  obtain ⟨_, _, _, _, _, _, _, _, e⟩ := s.settle.opened_frame
  refine ⟨.inr ?_, ?_, ?_, ?_, .inl ?_⟩
  · have hs : s.settle.opened.servo = s.settle.latchFeedback.servo := by rw [e]
    rw [hs, hi, State.latchFeedback_fresh (s := s.settle) hf]
    exact ⟨decide_eq_true ⟨h1, h2⟩, hl⟩
  · rw [e]; exact hc
  · rw [e]; rfl
  · rw [e]; rfl
  · rw [hi, e]; exact ⟨hs, hd, hr⟩

/-- The boundary at which the STOP descent brings R to 0 ends in STOPPED (R24, R80). -/
theorem StopRow.boundary (h : StopRow s s.settle.opened) (first : List BoundaryAction) :
    StopRow s (s.settle.boundary first) ∧ (s.settle.boundary first).run.state = .stopped :=
  ⟨List.foldlRecOn (motive := fun t : State => StopRow s t) _ _ h fun _ g a _ => (g.act a).1,
    foldl_reaches (P := StopRow s) (Q := fun t : State => t.run.state = .stopped) (fun _ a g => (g.act a).1)
      (fun _ a g k => (g.act a).2 (.inl k)) (a := .rampStep) (fun _ g => (g.act _).2 (.inr rfl))
      (mem_boundaryOrder first .rampStep) h⟩

/-! ### The end of a PAUSE ramp (R25, R79) -/

/-- What the end of a PAUSE ramp leaves, with no order due. -/
structure PauseRow (s t : State) : Prop where
  trip : t.run.trip = s.run.trip
  stopField : t.run.stopField = s.run.stopField
  queue : t.sched.queue = s.sched.queue
  head : t.sched.head = s.sched.head
  due : t.orders.pending.filter t.due = []

/-- Before the ramps step: PAUSING with the ramp at hand. -/
def State.pausingWith (s : State) (r : Ramp) (t : State) : Prop :=
  PauseRow s t ∧ t.run.state = .pausing ∧ t.drive.runRamp = some (.ramp r)

/-- After: PAUSED at 0. -/
def State.pausedAtZero (s t : State) : Prop :=
  PauseRow s t ∧ t.run.state = .paused ∧ t.drive.ramp = 0 ∧ t.drive.runRamp = none ∧ .rampEnd ∈ t.scratch.brought

theorem PauseRow.of_harmless {J : Station → Prop} {n : Nat} (h : Harmless J n t u) (g : PauseRow s t) : PauseRow s u := by
  obtain ⟨h1, h2, h3, h4, h5⟩ := g
  refine ⟨by rw [h.run, h1], by rw [h.run, h2], by rw [h.sched, h3], by rw [h.sched, h4], ?_⟩
  have hd : u.due = t.due := funext fun o => by unfold State.due; rw [h.cycle]
  rw [h.orders, hd, h5]

theorem State.pausingWith_stage (s : State) (r : Ramp) : Stage (s.pausingWith r) where
  harmless h g := ⟨g.1.of_harmless h, by rw [h.run]; exact g.2.1, by rw [h.drive]; exact g.2.2⟩
  check g := State.countdownCheck_of_ne (by rw [g.2.1]; decide)
  assembly g := State.assemblyTest_of_ne (by rw [g.2.1]; decide)

theorem State.pausedAtZero_stage (s : State) : Stage s.pausedAtZero where
  harmless h g := ⟨g.1.of_harmless h, by rw [h.run]; exact g.2.1, by rw [h.drive]; exact g.2.2.1,
    by rw [h.drive]; exact g.2.2.2.1, h.brought _ g.2.2.2.2⟩
  check g := State.countdownCheck_of_ne (by rw [g.2.1]; decide)
  assembly g := State.assemblyTest_of_ne (by rw [g.2.1]; decide)

/-- The last step of a ramp to 0 in PAUSING reports its end, and the node is PAUSED (R25, R79). -/
theorem State.pausingWith_step {r : Ramp} (h0 : r.target = 0) (hl : r.length = r.step + 1) (h : s.pausingWith r t) :
    s.pausedAtZero t.stepRamps := by
  obtain ⟨⟨h1, h2, h3, h4, h5⟩, hs, hr⟩ := h
  have hv : r.value (r.step + 1) = 0 := by rw [← hl, r.value_length (by omega), h0]
  have hstep : t.levelStepped.drive.stepRun t.levelStepped.items.stopStep =
      ({ t.levelStepped.drive with ramp := 0, runRamp := none }, .rampAtZero) := by
    unfold Drive.stepRun
    rw [t.levelStepped_runRamp.1, hr]
    simp [hv, h0, hl]
  have he : t.stepRamps = (t.levelStepped.runStepped.bring .rampEnd).changeState .paused := by
    rw [State.stepRamps_eq (by rw [hs]; decide) (by rw [hs]; decide), State.stepRunRamp_eq, hstep]
    exact if_pos hs
  have hd : (t.levelStepped.runStepped.bring .rampEnd).drive = { t.levelStepped.drive with ramp := 0, runRamp := none } :=
    congrArg Prod.fst hstep
  have hdue : t.stepRamps.due = t.due := funext fun o => by
    unfold State.due; rw [State.cycle_of_quiet t.stepRamps_quiet]
  refine ⟨⟨?_, ?_, ?_, ?_, ?_⟩, ?_⟩
  · rw [he, State.changeState_trip]; exact h1
  · rw [he, State.changeState_stopField]; exact h2
  · rw [he, State.changeState_sched]; exact h3
  · rw [he, State.changeState_sched]; exact h4
  · rw [hdue, he, State.changeState_orders]; exact h5
  · rw [he, State.changeState_drive, hd, State.changeState_scratch]
    exact ⟨rfl, rfl, rfl, List.mem_cons_self⟩

/-- Settles O9: the last step is among the acts, and none of the others leaves STOPPED or PAUSED. -/
theorem descentEndStops : Obligations.DescentEndStops := by
  refine ⟨fun s first hc hm hs hd hr hl hf h1 h2 hsides => ?_, fun s first r hc hm hs hd h0 hl hcalm hdue => ?_⟩
  · obtain ⟨hrow, hst⟩ := (StopRow.opened hs hd hr hl hf h1 h2 hsides).boundary first
    rcases hrow.state with ⟨g, -⟩ | ⟨-, g1, g2, g3⟩
    · exact absurd (g.symm.trans hst) (by decide)
    · exact ⟨_, congrArg Host.Outcome.next (State.bringing_boundary hc hm g3), State.boundary_exec hc hm first, hst, g1, g2,
        hrow.trip, hrow.stopField, s.settle.boundary_sameOutput first⟩
  · have hstart : s.pausingWith r s.settle.opened := by
      obtain ⟨_, _, _, _, _, _, _, _, e⟩ := s.settle.opened_frame
      rw [e]
      refine ⟨⟨rfl, rfl, rfl, rfl, ?_⟩, hs, hd⟩
      exact List.filter_eq_nil_iff.mpr fun o ho => by
        show ¬ (!later o.effective (s.time.cycle + 1)) = true
        rw [hdue o ho]; decide
    obtain ⟨hrow, g1, g2, g3, g4⟩ := CalmFor.stages (s.pausingWith_stage r) s.pausedAtZero_stage (s.pausingWith_stage r)
      s.pausedAtZero_stage (fun _ h => State.pausingWith_step h0 hl h) (fun _ h => State.pausingWith_step h0 hl h)
      (fun t h => by rw [State.takeDueOrders_of_none h.1.due]; exact h)
      (fun t h => by rw [State.takeDueOrders_of_none h.1.due]; exact h) (first := first)
      (State.calm_opened hcalm _) hstart
    exact ⟨_, congrArg Host.Outcome.next (State.bringing_boundary hc hm g4), State.boundary_exec hc hm first, g1, g2, g3,
      hrow.trip, hrow.stopField, hrow.queue, hrow.head, s.settle.boundary_sameOutput first⟩

end Sys2Proof.Machine

namespace Sys2Proof.Machine

variable {s t u : State} {o : Order}

/-! ### An order that fits the run state -/

/-- An order that the run state at hand allows (R114 to R117). -/
def State.fits (t : State) (o : Order) : Prop :=
  match o.kind with
  | .start => t.run.state = .countdown ∧ t.run.countdown = some o.id
  | .pause => t.run.state = .run
  | .resume => t.run.state = .paused
  | .level => t.run.state = .run ∨ t.run.state = .pausing ∨ t.run.state = .paused

theorem State.fits_state (h : t.fits o) : (o.kind = .start ∧ t.run.state = .countdown) ∨
    (o.kind ≠ .start ∧ (t.run.state = .run ∨ t.run.state = .pausing ∨ t.run.state = .paused)) := by
  unfold State.fits at h
  cases hk : o.kind <;> rw [hk] at h
  · exact .inl ⟨rfl, h.1⟩
  · exact .inr ⟨nofun, .inl h⟩
  · exact .inr ⟨nofun, .inr (.inr h)⟩
  · exact .inr ⟨nofun, h⟩

/-- A countdown check that no station fails does nothing (R77). -/
theorem State.countdownCheck_of_passes (h : ∀ j, t.failsCountdown j = false) : t.countdownCheck = t := by
  have hf : stations.find? t.failsCountdown = none := List.find?_eq_none.mpr fun j _ => by simp [h j]
  unfold State.countdownCheck
  split
  · rw [hf]
  · rfl

/-- A fitting order is applied as its kind says (R114 to R117). -/
theorem State.settleOrder_fits (h : t.fits o) (hp : o.kind = .start → ∀ j, t.failsCountdown j = false) :
    t.settleOrder o = match o.kind with
      | .start => t.applyStart o
      | .pause => t.applyPause o
      | .resume => t.applyResume o
      | .level => t.applyLevel o := by
  unfold State.fits at h
  cases hk : o.kind <;> rw [hk] at h
  · rw [State.settleOrder, hk, State.takeStart, if_pos h, State.countdownCheck_of_passes (hp hk)]
    exact if_pos h.1
  · rw [State.settleOrder, hk, h]
  · rw [State.settleOrder, hk, h]
  · rcases h with h | h | h <;> rw [State.settleOrder, hk, h]

theorem State.due_of_cycle {n : Word} (h : t.time.cycle = n) : t.due = fun x : Order => !later x.effective n :=
  funext fun x => by unfold State.due; rw [h]

/-- The one due order is taken (R113). -/
theorem State.takeDueOrders_one (hon : t.run.state ≠ .offline) (h : t.orders.pending.filter t.due = [o]) :
    t.takeDueOrders = t.takeOrder o := by
  rw [State.takeDueOrders, if_pos (by simpa [State.online] using hon), h]
  rfl

/-! ### Steps of R that report nothing -/

/-- The R descriptor, if any, is no descent and has not 0 for its target. -/
def Drive.rising (d : Drive) : Prop := d.runRamp ≠ some .descent ∧ ∀ r, d.runRamp = some (.ramp r) → r.target ≠ 0

/-- Such a descriptor reports nothing, and steps to such a one (R25). -/
theorem Drive.stepRun_rising {d : Drive} (h : d.rising) (k : Nat) :
    (d.stepRun k).2 = .nothing ∧ (d.stepRun k).1.rising := by
  obtain ⟨h1, h2⟩ := h
  unfold Drive.stepRun
  split
  next hn => exact ⟨rfl, h1, h2⟩
  next r hr =>
    have ht := h2 r hr
    refine ⟨if_neg fun g => ht g.1, ?_, fun q hq => ?_⟩
    · dsimp only; split <;> simp
    · dsimp only at hq
      split at hq
      · cases hq
      · cases hq; exact ht
  next hd => exact absurd hd h1

theorem State.stepRunRamp_rising (h : t.drive.rising) :
    t.stepRunRamp = { t with drive := (t.drive.stepRun t.items.stopStep).1 } := by
  rw [State.stepRunRamp_eq, State.runStepped, (Drive.stepRun_rising h _).1]
  rfl

theorem Drive.stepRun_ramp {d : Drive} {r : Ramp} {k : Nat} (h : d.runRamp = some (.ramp r)) : d.stepRun k =
    ({ d with ramp := r.value (r.step + 1)
              runRamp := if r.length ≤ r.step + 1 then none else some (.ramp { r with step := r.step + 1 }) },
      if r.target = 0 ∧ r.value (r.step + 1) = 0 ∧ (d.ramp ≠ 0 ∨ r.length ≤ r.step + 1) then .rampAtZero
      else .nothing) := by
  unfold Drive.stepRun
  rw [h]
  simp only [decide_eq_true_eq]

/-- What the report of a step leaves outside STOPPING (R25, R79). -/
theorem State.takeReport_playing (h : t.run.state ≠ .stopping) (r : RampReport) :
    (t.takeReport r).drive = t.drive ∧ (t.takeReport r).orders = t.orders ∧ (t.takeReport r).sched = t.sched ∧
    (t.takeReport r).time = t.time ∧ (t.takeReport r).scratch.stepped = t.scratch.stepped ∧
    ((t.takeReport r).run.state = t.run.state ∨ (t.run.state = .pausing ∧ (t.takeReport r).run.state = .paused)) := by
  cases r with
  | nothing => exact ⟨rfl, rfl, rfl, rfl, rfl, .inl rfl⟩
  | rampAtZero =>
    simp only [State.takeReport]
    split
    next hp => exact ⟨by simp, by simp, by simp, by simp, by simp, .inr ⟨hp, rfl⟩⟩
    · exact ⟨rfl, rfl, rfl, rfl, rfl, .inl rfl⟩
  | descentAtZero =>
    rw [State.takeReport]
    rw [if_neg (show (t.bring .rampEnd).run.state ≠ .stopping from h)]
    exact ⟨rfl, rfl, rfl, rfl, rfl, .inl rfl⟩

/-- What a step of R leaves outside STOPPING. -/
theorem State.stepRunRamp_playing (h : t.run.state ≠ .stopping) :
    t.stepRunRamp.drive = (t.drive.stepRun t.items.stopStep).1 ∧ t.stepRunRamp.orders = t.orders ∧
    t.stepRunRamp.sched = t.sched ∧ t.stepRunRamp.time = t.time ∧
    t.stepRunRamp.scratch.stepped.map Prod.fst = t.scratch.stepped.map Prod.fst ∧
    (t.stepRunRamp.run.state = t.run.state ∨ (t.run.state = .pausing ∧ t.stepRunRamp.run.state = .paused)) := by
  obtain ⟨h1, h2, h3, h4, h5, h6⟩ := State.takeReport_playing (t := t.runStepped) h (t.drive.stepRun t.items.stopStep).2
  rw [State.stepRunRamp_eq]
  refine ⟨h1, h2, h3, h4, ?_, h6⟩
  rw [h5]
  show (t.scratch.atZero _).stepped.map _ = _
  unfold Scratch.atZero
  split
  · rfl
  · rw [Option.map_map]; rfl

/-- R steps without L (R22, R24). -/
theorem Drive.stepRun_level (d : Drive) (k : Nat) : (d.stepRun k).1.level = d.level ∧ (d.stepRun k).1.levelRamp = d.levelRamp := by
  rw [d.stepRun_frame]; exact ⟨rfl, rfl⟩

/-- L's base is told by what the scratch keeps of L. -/
theorem State.levelBase_of_some {l : Nat} (h : t.scratch.stepped.map Prod.fst = some l) : t.levelBase = l := by
  obtain ⟨x, hx, rfl⟩ := Option.map_eq_some_iff.mp h
  rw [State.levelBase, hx]

end Sys2Proof.Machine

namespace Sys2Proof.Machine

variable {s t u : State} {o : Order}

/-! ### A due order at a calm boundary, before it is taken -/

/-- Order o of s waits to be taken: it fits the run state, and the values that its ramp begins from are those of s. -/
structure Waits (s : State) (o : Order) (t : State) : Prop where
  orders : t.orders = s.orders
  cycle : t.time.cycle = s.time.cycle + 1
  replay : t.sched.replay = s.sched.replay
  level : t.levelBase = s.drive.level
  ramp : o.kind ≠ .level → t.rampBase = s.drive.ramp
  fits : t.fits o
  rising : o.kind ≠ .level → t.drive.rising
  passes : o.kind = .start → ∀ j, t.failsCountdown j = false

theorem State.failsCountdown_congr (hr : u.run.adoption = t.run.adoption) (hp : ∀ j, (u.peer j).state = (t.peer j).state ∧
    (u.peer j).expected = (t.peer j).expected ∧ (u.peer j).shares = (t.peer j).shares ∧ (u.peer j).last = (t.peer j).last)
    (j : Station) : u.failsCountdown j = t.failsCountdown j := by
  obtain ⟨h1, h2, h3, h4⟩ := hp j
  simp only [State.failsCountdown, h1, h2, h3, h4, hr]

theorem Waits.of_harmless {J : Station → Prop} {n : Nat} (h : Harmless J n t u) (g : Waits s o t) : Waits s o u where
  orders := h.orders.trans g.orders
  cycle := h.cycle.trans g.cycle
  replay := by rw [h.sched]; exact g.replay
  level := by unfold State.levelBase; rw [h.stepped, h.drive]; exact g.level
  ramp hk := by unfold State.rampBase; rw [h.stepped, h.drive]; exact g.ramp hk
  fits := by unfold State.fits; rw [h.run]; exact g.fits
  rising hk := by rw [h.drive]; exact g.rising hk
  passes hk j := by rw [State.failsCountdown_congr (by rw [h.run]) h.peers]; exact g.passes hk j

theorem Waits.check (g : Waits s o t) : t.countdownCheck = t := by
  rcases State.fits_state g.fits with ⟨hk, -⟩ | ⟨-, hs⟩
  · exact State.countdownCheck_of_passes (g.passes hk)
  · exact State.countdownCheck_of_ne (by rcases hs with h | h | h <;> rw [h] <;> decide)

theorem Waits.active (g : Waits s o t) : t.run.state ≠ .offline ∧ t.run.state ≠ .tripped ∧ t.run.state ≠ .assembly ∧
    t.run.state ≠ .stopping := by
  rcases State.fits_state g.fits with ⟨-, h⟩ | ⟨-, h | h | h⟩ <;> rw [h] <;> decide

theorem Waits.stage (s : State) (o : Order) (P : Option (Nat × Nat) → Prop) :
    Stage fun t => Waits s o t ∧ P t.scratch.stepped where
  harmless h g := ⟨g.1.of_harmless h, by rw [h.stepped]; exact g.2⟩
  check g := g.1.check
  assembly g := State.assemblyTest_of_ne g.1.active.2.2.1

/-- The stepping of the ramps keeps the values before it at hand, and the order fits as before (R22, R23). -/
theorem Waits.stepRamps (g : Waits s o t) (h0 : t.scratch.stepped = none) :
    Waits s o t.stepRamps ∧ t.stepRamps.scratch.stepped.isSome = true := by
  obtain ⟨h1, h2, -, h4⟩ := g.active
  have hl : t.drive.level = s.drive.level := by simpa only [State.levelBase, h0] using g.level
  have hr : o.kind ≠ .level → t.drive.ramp = s.drive.ramp := by simpa only [State.rampBase, h0] using g.ramp
  rw [State.stepRamps_eq h1 h2]
  by_cases hk : o.kind = .level
  · obtain ⟨-, g2, g3, g4, g5, g6⟩ := State.stepRunRamp_playing (t := t.levelStepped) h4
    have hfit : t.levelStepped.stepRunRamp.fits o := by
      have hf := g.fits
      unfold State.fits at hf ⊢
      rw [hk] at hf ⊢
      rcases g6 with e | ⟨-, e⟩
      · rw [e]; exact hf
      · exact .inr (.inr e)
    refine ⟨⟨g2.trans g.orders, (congrArg Time.cycle g4).trans g.cycle, (congrArg Sched.replay g3).trans g.replay,
      State.levelBase_of_some (g5.trans (congrArg some hl)), fun e => absurd hk e, hfit, fun e => absurd hk e,
      fun e => absurd (hk.symm.trans e) (by decide)⟩, ?_⟩
    rw [← Option.isSome_map, g5]
    rfl
  · have hv : t.levelStepped.drive.rising := by
      unfold Drive.rising; rw [t.levelStepped_runRamp.1]; exact g.rising hk
    rw [State.stepRunRamp_rising hv]
    exact ⟨⟨g.orders, g.cycle, g.replay, hl, hr, g.fits, fun _ => (Drive.stepRun_rising hv _).2, g.passes⟩, rfl⟩

/-- The one due order is the act's (R113). -/
theorem Waits.takeDueOrders (g : Waits s o t)
    (hdue : s.orders.pending.filter (fun x => !later x.effective (s.time.cycle + 1)) = [o]) :
    t.takeDueOrders = t.takeOrder o :=
  State.takeDueOrders_one g.active.1 (by rw [g.orders, State.due_of_cycle g.cycle, hdue])

/-- A waiting order is taken as its kind says (R113 to R117). -/
theorem Waits.takeOrder (g : Waits s o t) : t.takeOrder o = match o.kind with
      | .start => (t.retireOrder o).applyStart o
      | .pause => (t.retireOrder o).applyPause o
      | .resume => (t.retireOrder o).applyResume o
      | .level => (t.retireOrder o).applyLevel o :=
  State.settleOrder_fits (t := t.retireOrder o) g.fits g.passes

/-! ### A ramp of R begun at a calm boundary -/

/-- The ramp that an order begins at a state (R114 to R116). -/
def State.orderedRamp (s : State) (o : Order) : Ramp :=
  if o.kind = .pause then { start := s.drive.ramp, target := 0, length := o.a, step := 0 }
  else { start := 0, target := 32768, length := o.a, step := 0 }

/-- What an order applied sets beside R (R114, R116). -/
structure Applied (s : State) (o : Order) (t : State) : Prop where
  pending : t.orders.pending = s.orders.pending.erase o
  countdown : o.kind = .start → t.run.countdown = none
  level : o.kind = .start → t.drive.level = o.b ∧ t.drive.levelRamp = none
  runStart : o.kind ≠ .pause → t.drive.runStart = s.sched.replay

/-- The ramp of order o stands at its beginning. -/
structure Begun (s : State) (o : Order) (t : State) : Prop extends Applied s o t where
  state : t.run.state = if o.kind = .pause then .pausing else .run
  runRamp : t.drive.runRamp = some (.ramp (s.orderedRamp o))

/-- The ramp of order o has taken its first step. -/
structure Ramped (s : State) (o : Order) (t : State) : Prop extends Applied s o t where
  running : o.kind ≠ .pause → t.run.state = .run
  pausing : o.kind = .pause → t.run.state = .pausing ∨ (t.run.state = .paused ∧ t.drive.ramp = 0)
  ended : o.kind = .pause → o.a = 1 → t.run.state = .paused
  ramp : t.drive.ramp = (s.orderedRamp o).value 1
  runRamp : t.drive.runRamp = if o.a ≤ 1 then none else some (.ramp { s.orderedRamp o with step := 1 })

theorem Applied.of_harmless {J : Station → Prop} {n : Nat} (h : Harmless J n t u) (g : Applied s o t) : Applied s o u where
  pending := by rw [h.orders]; exact g.pending
  countdown hk := by rw [h.run]; exact g.countdown hk
  level hk := by rw [h.drive]; exact g.level hk
  runStart hk := by rw [h.drive]; exact g.runStart hk

theorem Begun.calm (g : Begun s o t) : t.run.state = .run ∨ t.run.state = .pausing := by
  rw [g.state]; split
  · exact .inr rfl
  · exact .inl rfl

theorem Ramped.calm (g : Ramped s o t) : t.run.state = .run ∨ t.run.state = .pausing ∨ t.run.state = .paused := by
  by_cases hk : o.kind = .pause
  · exact .inr ((g.pausing hk).imp_right And.left)
  · exact .inl (g.running hk)

theorem Begun.stage (s : State) (o : Order) : Stage (Begun s o) where
  harmless h g := ⟨g.toApplied.of_harmless h, by rw [h.run]; exact g.state, by rw [h.drive]; exact g.runRamp⟩
  check g := State.countdownCheck_of_ne (by rcases g.calm with h | h <;> rw [h] <;> decide)
  assembly g := State.assemblyTest_of_ne (by rcases g.calm with h | h <;> rw [h] <;> decide)

theorem Ramped.stage (s : State) (o : Order) : Stage (Ramped s o) where
  harmless h g := ⟨g.toApplied.of_harmless h, by rw [h.run]; exact g.running, by rw [h.run, h.drive]; exact g.pausing,
    by rw [h.run]; exact g.ended, by rw [h.drive]; exact g.ramp, by rw [h.drive]; exact g.runRamp⟩
  check g := State.countdownCheck_of_ne (by rcases g.calm with h | h | h <;> rw [h] <;> decide)
  assembly g := State.assemblyTest_of_ne (by rcases g.calm with h | h | h <;> rw [h] <;> decide)

theorem State.orderedRamp_length (s : State) (o : Order) : (s.orderedRamp o).length = o.a ∧ (s.orderedRamp o).step = 0 := by
  unfold State.orderedRamp; split <;> exact ⟨rfl, rfl⟩

theorem State.takeReport_rampAtZero (h : t.run.state = .pausing) :
    t.takeReport .rampAtZero = (t.bring .rampEnd).changeState .paused := if_pos h

theorem State.orderedRamp_pause (h : o.kind = .pause) : (s.orderedRamp o).target = 0 ∧
    (o.a = 1 → (s.orderedRamp o).value 1 = 0) := by
  have hr : s.orderedRamp o = { start := s.drive.ramp, target := 0, length := o.a, step := 0 } := if_pos h
  refine ⟨by rw [hr], fun ha => ?_⟩
  have hv := Ramp.value_length (s.orderedRamp o) (by rw [hr]; exact ha.ge)
  rw [(s.orderedRamp_length o).1, ha] at hv
  rw [hv, hr]

theorem Begun.stepRun (g : Begun s o t) (k : Nat) : t.drive.stepRun k =
    ({ t.drive with ramp := (s.orderedRamp o).value 1
                    runRamp := if o.a ≤ 1 then none else some (.ramp { s.orderedRamp o with step := 1 }) },
      if (s.orderedRamp o).target = 0 ∧ (s.orderedRamp o).value 1 = 0 ∧ (t.drive.ramp ≠ 0 ∨ o.a ≤ 1) then .rampAtZero
      else .nothing) := by
  obtain ⟨hl, hs⟩ := s.orderedRamp_length o
  have hstep := Drive.stepRun_ramp (k := k) g.runRamp
  rw [hs] at hstep
  rw [← hl]
  exact hstep

/-- The first step of the ramp begun (R22); a PAUSE ramp may end with it (R25, R79). -/
theorem Begun.stepRunRamp (g : Begun s o t) : Ramped s o t.stepRunRamp := by
  have hstep := g.stepRun t.items.stopStep
  by_cases hk : o.kind = .pause
  · obtain ⟨ht, hv⟩ := State.orderedRamp_pause (s := s) hk
    have hstate : t.run.state = .pausing := g.state.trans (if_pos hk)
    obtain ⟨g1, g2, -, -, -, g6⟩ := State.stepRunRamp_playing (t := t) (by rw [hstate]; decide)
    rw [hstep] at g1
    have hreport := congrArg Prod.snd hstep
    have hended : (s.orderedRamp o).value 1 = 0 → (t.drive.ramp ≠ 0 ∨ o.a ≤ 1) → t.stepRunRamp.run.state = .paused := by
      intro h0 h1
      rw [State.stepRunRamp_eq, hreport.trans (if_pos ⟨ht, h0, h1⟩), State.takeReport_rampAtZero (t := t.runStepped) hstate]
      rfl
    have hkeeps : ¬ ((s.orderedRamp o).value 1 = 0 ∧ (t.drive.ramp ≠ 0 ∨ o.a ≤ 1)) → t.stepRunRamp.run.state = .pausing := by
      intro h
      rw [State.stepRunRamp_eq, hreport.trans (if_neg fun c => h c.2)]
      exact hstate
    refine ⟨⟨by rw [g2]; exact g.pending, fun e => absurd (hk.symm.trans e) (by decide),
      fun e => absurd (hk.symm.trans e) (by decide), fun e => absurd hk e⟩, fun e => absurd hk e, fun _ => ?_,
      fun _ ha => hended (hv ha) (.inr ha.le), by rw [g1], by rw [g1]⟩
    by_cases hz : (s.orderedRamp o).value 1 = 0 ∧ (t.drive.ramp ≠ 0 ∨ o.a ≤ 1)
    · exact .inr ⟨hended hz.1 hz.2, by rw [g1]; exact hz.1⟩
    · exact .inl (hkeeps hz)
  · have ht : (s.orderedRamp o).target ≠ 0 := by unfold State.orderedRamp; rw [if_neg hk]; exact Nat.succ_ne_zero _
    have hr : t.drive.rising := by
      refine ⟨by rw [g.runRamp]; simp, fun r hr => ?_⟩
      rw [g.runRamp] at hr
      cases hr
      exact ht
    rw [State.stepRunRamp_rising hr, hstep]
    exact ⟨⟨g.pending, g.countdown, g.level, g.runStart⟩, fun _ => g.state.trans (if_neg hk), fun e => absurd e hk,
      fun e => absurd e hk, rfl, rfl⟩

/-- The ramp begun takes its first step with the others of the boundary. -/
theorem Begun.stepRamps (g : Begun s o t) : Ramped s o t.stepRamps := by
  have hs : t.run.state ≠ .offline ∧ t.run.state ≠ .tripped := by rcases g.calm with h | h <;> rw [h] <;> decide
  rw [State.stepRamps_eq hs.1 hs.2]
  have hl : o.kind = .start → t.levelStepped.drive.level = o.b ∧ t.levelStepped.drive.levelRamp = none := by
    intro hk
    obtain ⟨g1, g2⟩ := g.level hk
    have he : t.drive.stepLevel = t.drive := by unfold Drive.stepLevel; rw [g2]
    show t.drive.stepLevel.level = _ ∧ t.drive.stepLevel.levelRamp = _
    rw [he]
    exact ⟨g1, g2⟩
  have hr : t.levelStepped.drive.runStart = t.drive.runStart := by unfold State.levelStepped; rw [Drive.stepLevel_frame]
  exact Begun.stepRunRamp ⟨⟨g.pending, g.countdown, hl, fun hk => hr.trans (g.runStart hk)⟩, g.state,
    t.levelStepped_runRamp.1.trans g.runRamp⟩

/-- What an order leaves that is retired, noted as applied and followed by its change of run state (R113 to R116). -/
theorem State.applied_frame (t : State) (o : Order) (r : RunState) :
    (((t.retireOrder o).noteApplied o).changeState r).drive = t.drive ∧
    (((t.retireOrder o).noteApplied o).changeState r).scratch = t.scratch ∧
    (((t.retireOrder o).noteApplied o).changeState r).sched = t.sched ∧
    (((t.retireOrder o).noteApplied o).changeState r).orders.pending = t.orders.pending.erase o ∧
    (t.run.state = .countdown → (((t.retireOrder o).noteApplied o).changeState r).run.countdown = none) := by
  refine ⟨by simp; rfl, by simp; rfl, by simp; rfl, by simp; rfl, fun h => ?_⟩
  have hr : (t.retireOrder o).run = t.run := rfl
  simp [hr, h]

/-- The ramp that an applied order begins; the step that a boundary still owes it follows at once (R22). -/
theorem Applied.begun (h : Applied s o t) (hs : t.run.state = if o.kind = .pause then .pausing else .run)
    (hd : t.drive.runRamp ≠ some .descent) {z : Bool} {x : Nat}
    (hr : { start := if z then 0 else t.rampBase, target := x, length := o.a, step := 0 } = s.orderedRamp o) :
    ∃ v, t.beginRamp z x o.a = v.firstStep ∧ Begun s o v ∧ v.scratch.stepped.isSome = t.scratch.stepped.isSome :=
  ⟨t.installRamp z x o.a, if_neg hd,
    ⟨⟨h.pending, h.countdown, h.level, h.runStart⟩, hs, congrArg (fun r => some (RunRamp.ramp r)) hr⟩, Option.isSome_map⟩

/-- An order of R taken has its ramp begun (R114 to R116). -/
theorem Waits.begun (g : Waits s o t) (hk : o.kind ≠ .level) : ∃ v, t.takeOrder o = v.firstStep ∧ Begun s o v ∧
    v.scratch.stepped.isSome = t.scratch.stepped.isSome := by
  have hd := (g.rising hk).1
  have hf := g.fits
  unfold State.fits at hf
  rw [g.takeOrder]
  cases hkind : o.kind <;> rw [hkind] at hf
  case level => exact absurd hkind hk
  case start =>
    obtain ⟨h1, h2, h3, h4, h5⟩ := t.applied_frame o .run
    have ha : Applied s o (((((t.retireOrder o).noteApplied o).changeState .run).setLevel o.b).setRunStart) :=
      ⟨h4.trans (by rw [g.orders]), fun _ => h5 hf.1, fun _ => ⟨rfl, rfl⟩, fun _ => (congrArg Sched.replay h3).trans g.replay⟩
    obtain ⟨v, e1, e2, e3⟩ := ha.begun (z := true) (x := 32768) (by rw [hkind]; rfl)
      (show (((t.retireOrder o).noteApplied o).changeState .run).drive.runRamp ≠ _ by rw [h1]; exact hd)
      (by rw [State.orderedRamp, hkind]; rfl)
    refine ⟨v, e1, e2, e3.trans (Option.isSome_map.trans ?_)⟩
    rw [h2]
  case pause =>
    obtain ⟨h1, h2, h3, h4, h5⟩ := t.applied_frame o .pausing
    have hb : (((t.retireOrder o).noteApplied o).changeState .pausing).rampBase = s.drive.ramp := by
      unfold State.rampBase; rw [h1, h2]; exact g.ramp hk
    obtain ⟨v, e1, e2, e3⟩ := Applied.begun (s := s) (o := o) (t := ((t.retireOrder o).noteApplied o).changeState .pausing)
      (z := false) (x := 0)
      ⟨h4.trans (by rw [g.orders]), fun e => absurd (hkind.symm.trans e) (by decide), fun e => absurd (hkind.symm.trans e) (by decide), fun e => absurd hkind e⟩ (by rw [hkind]; rfl)
      (by rw [h1]; exact hd) (by rw [State.orderedRamp, hkind, hb]; rfl)
    exact ⟨v, e1, e2, e3.trans (by rw [h2])⟩
  case resume =>
    obtain ⟨h1, h2, h3, h4, h5⟩ := t.applied_frame o .run
    have ha : Applied s o ((((t.retireOrder o).noteApplied o).changeState .run).setRunStart) :=
      ⟨h4.trans (by rw [g.orders]), fun e => absurd (hkind.symm.trans e) (by decide), fun e => absurd (hkind.symm.trans e) (by decide),
        fun _ => (congrArg Sched.replay h3).trans g.replay⟩
    obtain ⟨v, e1, e2, e3⟩ := ha.begun (z := true) (x := 32768) (by rw [hkind]; rfl)
      (show (((t.retireOrder o).noteApplied o).changeState .run).drive.runRamp ≠ _ by rw [h1]; exact hd)
      (by rw [State.orderedRamp, hkind]; rfl)
    exact ⟨v, e1, e2, e3.trans (by show (((t.retireOrder o).noteApplied o).changeState .run).scratch.stepped.isSome = _; rw [h2])⟩

end Sys2Proof.Machine

namespace Sys2Proof.Machine

variable {s t u : State} {o : Order} {first : List BoundaryAction}

/-! ### The calm boundary of a due order (R113 to R117) -/

/-- A START, PAUSE or RESUME is due at a calm boundary: its ramp takes its first step there, in any order of the acts. -/
theorem Waits.ramped (hcalm : s.calm)
    (hdue : s.orders.pending.filter (fun x => !later x.effective (s.time.cycle + 1)) = [o]) (hk : o.kind ≠ .level)
    (h : Waits s o s.settle.opened) : Ramped s o (s.settle.boundary first) := by
  have h0 : s.settle.opened.scratch.stepped = none := by
    obtain ⟨_, _, _, _, _, _, _, _, e⟩ := s.settle.opened_frame; rw [e]; rfl
  refine CalmFor.stages (Waits.stage s o (· = none)) (Waits.stage s o (·.isSome = true)) (Begun.stage s o) (Ramped.stage s o)
    (fun t g => g.1.stepRamps g.2) (fun t g => g.stepRamps) (fun t g => ?_) (fun t g => ?_) (State.calm_opened hcalm _) ⟨h, h0⟩
  · obtain ⟨v, e, hv, hs⟩ := g.1.begun hk
    rw [g.2] at hs
    rw [g.1.takeDueOrders hdue, e, State.firstStep, if_neg (by rw [hs]; decide)]
    exact hv
  · obtain ⟨v, e, hv, hs⟩ := g.1.begun hk
    rw [g.1.takeDueOrders hdue, e, State.firstStep, if_pos (hs.trans g.2)]
    exact hv.stepRunRamp

/-- The ramp that a LEVEL begins at a state (R117). -/
def State.levelOrdered (s : State) (o : Order) : Ramp := { start := s.drive.level, target := o.b, length := o.a, step := 0 }

/-- The ramp of a LEVEL stands at its beginning, or has taken its first step. -/
structure LevelAt (s : State) (o : Order) (l : Nat) (r : Option Ramp) (t : State) : Prop where
  pending : t.orders.pending = s.orders.pending.erase o
  state : t.run.state = .run ∨ t.run.state = .pausing ∨ t.run.state = .paused
  level : t.drive.level = l
  levelRamp : t.drive.levelRamp = r

theorem LevelAt.stage (s : State) (o : Order) (l : Nat) (r : Option Ramp) : Stage (LevelAt s o l r) where
  harmless h g := ⟨by rw [h.orders]; exact g.pending, by rw [h.run]; exact g.state, by rw [h.drive]; exact g.level,
    by rw [h.drive]; exact g.levelRamp⟩
  check g := State.countdownCheck_of_ne (by rcases g.state with h | h | h <;> rw [h] <;> decide)
  assembly g := State.assemblyTest_of_ne (by rcases g.state with h | h | h <;> rw [h] <;> decide)

/-- The first step of the ramp that a LEVEL begins (R22). -/
theorem State.levelOrdered_stepLevel {d : Drive} (hr : d.levelRamp = some (s.levelOrdered o)) :
    d.stepLevel.level = (s.levelOrdered o).value 1 ∧
    d.stepLevel.levelRamp = if o.a ≤ 1 then none else some { s.levelOrdered o with step := 1 } := by
  rw [Drive.stepLevel_some hr]
  exact ⟨rfl, rfl⟩

theorem LevelAt.stepRamps {l : Nat} (g : LevelAt s o l (some (s.levelOrdered o)) t) :
    LevelAt s o ((s.levelOrdered o).value 1) (if o.a ≤ 1 then none else some { s.levelOrdered o with step := 1 }) t.stepRamps := by
  have hs : t.run.state ≠ .offline ∧ t.run.state ≠ .tripped ∧ t.run.state ≠ .stopping := by
    rcases g.state with h | h | h <;> rw [h] <;> decide
  obtain ⟨g1, g2, -, -, -, g6⟩ := State.stepRunRamp_playing (t := t.levelStepped) hs.2.2
  obtain ⟨h1, h2⟩ := t.levelStepped.drive.stepRun_level t.levelStepped.items.stopStep
  obtain ⟨k1, k2⟩ := State.levelOrdered_stepLevel g.levelRamp
  rw [State.stepRamps_eq hs.1 hs.2.1]
  refine ⟨by rw [g2]; exact g.pending, ?_, by rw [g1, h1]; exact k1, by rw [g1, h2]; exact k2⟩
  rcases g6 with e | ⟨-, e⟩
  · rw [e]; exact g.state
  · exact .inr (.inr e)

/-- A LEVEL taken (R117). -/
theorem Waits.levelTaken (g : Waits s o t) (hk : o.kind = .level) :
    (t.scratch.stepped = none → LevelAt s o s.drive.level (some (s.levelOrdered o)) (t.takeOrder o)) ∧
    (t.scratch.stepped.isSome = true → LevelAt s o ((s.levelOrdered o).value 1)
      (if o.a ≤ 1 then none else some { s.levelOrdered o with step := 1 }) (t.takeOrder o)) := by
  have hst : t.run.state = .run ∨ t.run.state = .pausing ∨ t.run.state = .paused := by
    have hf := g.fits
    unfold State.fits at hf
    rw [hk] at hf
    exact hf
  have hd : ((t.retireOrder o).noteApplied o).scratch = t.scratch := State.noteApplied_scratch _ _
  have hb : ((t.retireOrder o).noteApplied o).levelBase = s.drive.level := by
    unfold State.levelBase; rw [hd, State.noteApplied_drive]; exact g.level
  have hp : ((t.retireOrder o).noteApplied o).orders.pending = s.orders.pending.erase o := by
    rw [State.noteApplied_orders, ← g.orders]; rfl
  have hr : ((t.retireOrder o).noteApplied o).run = t.run := State.noteApplied_run _ _
  have he : t.takeOrder o = ((t.retireOrder o).noteApplied o).rampLevel o.b o.a := by rw [g.takeOrder, hk]; rfl
  rw [he]
  unfold State.rampLevel
  rw [hb, hd]
  refine ⟨fun h => ?_, fun h => ?_⟩
  · rw [h]
    exact ⟨hp, by rw [← hr] at hst; exact hst, rfl, rfl⟩
  · rw [h]
    obtain ⟨k1, k2⟩ := State.levelOrdered_stepLevel (s := s) (o := o) (d := { ((t.retireOrder o).noteApplied o).drive with
      level := s.drive.level, levelRamp := some (s.levelOrdered o) }) rfl
    exact ⟨hp, by rw [← hr] at hst; exact hst, k1, k2⟩

/-- A LEVEL is due at a calm boundary: its ramp takes its first step there, in any order of the acts. -/
theorem Waits.leveled (hcalm : s.calm)
    (hdue : s.orders.pending.filter (fun x => !later x.effective (s.time.cycle + 1)) = [o]) (hk : o.kind = .level)
    (h : Waits s o s.settle.opened) : LevelAt s o ((s.levelOrdered o).value 1)
      (if o.a ≤ 1 then none else some { s.levelOrdered o with step := 1 }) (s.settle.boundary first) := by
  have h0 : s.settle.opened.scratch.stepped = none := by
    obtain ⟨_, _, _, _, _, _, _, _, e⟩ := s.settle.opened_frame; rw [e]; rfl
  refine CalmFor.stages (Waits.stage s o (· = none)) (Waits.stage s o (·.isSome = true)) (LevelAt.stage s o s.drive.level _)
    (LevelAt.stage s o _ _) (fun t g => g.1.stepRamps g.2) (fun t g => g.stepRamps) (fun t g => ?_) (fun t g => ?_)
    (State.calm_opened hcalm _) ⟨h, h0⟩
  · rw [g.1.takeDueOrders hdue]; exact (g.1.levelTaken hk).1 g.2
  · rw [g.1.takeDueOrders hdue]; exact (g.1.levelTaken hk).2 g.2

/-- An order that fits a state waits at the opening of its boundary. -/
theorem Waits.opened (hf : s.fits o) (hr : o.kind ≠ .level → s.drive.rising)
    (hp : o.kind = .start → ∀ j, s.failsCountdown j = false) : Waits s o s.settle.opened := by
  obtain ⟨_, _, _, _, _, _, _, _, e⟩ := s.settle.opened_frame
  rw [e]
  exact ⟨rfl, rfl, rfl, rfl, fun _ => rfl, hf, hr, hp⟩

theorem State.failsCountdown_of_shown {j : Station} (h : (s.peer j).expected = true → (s.peer j).shares = true →
    (s.peer j).state = .active ∧ (earlier (s.peer j).last.cycle (s.run.adoption + 2) = true ∨ (s.peer j).last.runState = 4 ∨
      (s.peer j).last.runState = 5)) : s.failsCountdown j = false := by
  simp only [State.failsCountdown]
  cases he : (s.peer j).expected
  · rfl
  · cases hs : (s.peer j).shares
    · rfl
    · obtain ⟨h1, h2⟩ := h he hs
      rcases h2 with h2 | h2 | h2
      · rw [h1, h2]; rfl
      · simp [h1, h2]
      · simp [h1, h2]

/-- Without a descriptor nothing is reported. -/
theorem Drive.rising_of_none {d : Drive} (h : d.runRamp = none) : d.rising :=
  ⟨by rw [h]; simp, fun r hr => by rw [h] at hr; cases hr⟩

end Sys2Proof.Machine

namespace Sys2Proof.Machine

variable {s t u : State} {o : Order} {a : BoundaryAction}

/-! ### What the acts without orders leave to an order -/

/-- From s to t no order has been taken: orders, I_s and the counters of orders stand, and no run state that an order fits has come
about, but PAUSED from PAUSING. -/
structure Unordered (s t : State) : Prop where
  orders : t.orders = s.orders
  runStart : t.drive.runStart = s.drive.runStart
  counters : ∀ c ∈ [Counter.ordersApplied, .ordersInapplicable], t.counter c = s.counter c
  state : t.run.state ∈ [RunState.run, .pausing, .countdown] → t.run.state = s.run.state
  paused : t.run.state = .paused → s.run.state = .paused ∨ s.run.state = .pausing
  countdown : t.run.state = .countdown → t.run.countdown = s.run.countdown

theorem Unordered.refl (s : State) : Unordered s s := ⟨rfl, rfl, fun _ _ => rfl, fun _ => rfl, .inl, fun _ => rfl⟩

theorem Unordered.trans (h : Unordered s t) (g : Unordered t u) : Unordered s u where
  orders := g.orders.trans h.orders
  runStart := g.runStart.trans h.runStart
  counters c hc := (g.counters c hc).trans (h.counters c hc)
  state hu := (g.state hu).trans (h.state (g.state hu ▸ hu))
  paused hu := by
    rcases g.paused hu with ht | ht
    · exact h.paused ht
    · exact .inr ((h.state (by rw [ht]; decide)).symm.trans ht)
  countdown hu := by
    have ht : u.run.state = t.run.state := g.state (by rw [hu]; decide)
    exact (g.countdown hu).trans (h.countdown (ht.symm.trans hu))

/-- A step that leaves run state, countdown order, orders, I_s and the counters of orders. -/
theorem Unordered.of_same (hr : t.run.state = s.run.state) (hk : t.run.countdown = s.run.countdown) (ho : t.orders = s.orders)
    (hd : t.drive.runStart = s.drive.runStart) (hc : ∀ c ∈ [Counter.ordersApplied, .ordersInapplicable], t.counter c = s.counter c) :
    Unordered s t := ⟨ho, hd, hc, fun _ => hr, fun h => .inl (hr.symm.trans h), fun _ => hk⟩

theorem counter_of_tally_orders (h : t.tally = s.tally) : ∀ c ∈ [Counter.ordersApplied, .ordersInapplicable],
    t.counter c = s.counter c := fun c hc =>
  State.counter_of_tally h (by revert c; decide)

theorem RunState.settlesTo_facts {x r : RunState} (h : x.settlesTo r = true) :
    r ∉ [RunState.run, .pausing, .countdown] ∧ (r = .paused → x = .pausing) := by
  cases x <;> cases r <;> simp_all [RunState.settlesTo]

theorem Move.unordered (m : Move noOrder s t) : Unordered s t := by
  cases m with
  | still e =>
    obtain ⟨h1, -, h2, -, -, h3, h4, -, -, h5⟩ := State.gear_eq_iff.mp e
    exact .of_same h1 h2 h4 (by rw [h3]) (counter_of_tally_orders h5)
  | bring | episode => exact .of_same rfl rfl rfl rfl fun _ _ => rfl
  | change _ r e =>
    obtain ⟨h1, h2⟩ := RunState.settlesTo_facts e
    exact ⟨by simp, by simp, counter_of_tally_orders (by simp), fun h => absurd h h1, fun h => .inr (h2 h),
      fun h => absurd (show r = .countdown from h) (by rintro rfl; exact h1 (by decide))⟩
  | stop => exact ⟨by simp, by simp, counter_of_tally_orders (by simp), fun h => by simp at h, nofun, nofun⟩
  | trip _ q =>
    obtain ⟨h1, -, -, -, -, h4, h5, -, -, h6⟩ := s.enterTripped_fields q
    exact ⟨h5, by rw [h4], counter_of_tally_orders h6, fun h => by rw [h1] at h; simp at h, fun h => (nomatch h1.symm.trans h),
      fun h => (nomatch h1.symm.trans h)⟩
  | descend => exact .of_same rfl rfl rfl rfl fun _ _ => rfl
  | stepRun => exact .of_same rfl rfl rfl (by rw [State.runStepped, Drive.stepRun_frame]) fun _ _ => rfl
  | stepLevel => exact .of_same rfl rfl rfl (by rw [State.levelStepped, Drive.stepLevel_frame]) fun _ _ => rfl
  | abort =>
    exact .of_same rfl rfl rfl rfl fun c hc => s.count_counter_other .countdownAbort c 1 (by revert c; decide)
  | file _ _ ho => exact ho.elim
  | offer _ _ ho => exact ho.elim
  | applied _ ho => exact ho.elim
  | inapplicable _ ho => exact ho.elim
  | order _ _ ho => exact ho.elim
  | count _ _ ho => exact ho.elim
  | level _ ho => exact ho.elim
  | start _ ho => exact ho.elim
  | ramp _ _ _ ho => exact ho.elim
  | rampLevel _ ho => exact ho.elim

theorem Moves.unordered (h : Moves noOrder s t) : Unordered s t := by
  induction h with
  | refl => exact .refl s
  | tail _ m ih => exact ih.trans m.unordered

/-! ### An order out of place (R118) -/

/-- The order unit after order o has been retired at s (R113). -/
def State.retiredOrders (s : State) (o : Order) : Orders :=
  { s.orders with
    pending := s.orders.pending.erase o
    history := (s.orders.history ++ [(⟨o.epoch, o.origin⟩ : OrderId)]).drop (s.orders.history.length + 1 - 8)
    carried := if o.origin = s.items.station ∧ s.orders.carried = some o.epoch then none else s.orders.carried }

/-- The boundary of s before its due orders. -/
structure Untaken (s t : State) : Prop extends Unordered s t where
  online : t.run.state ≠ .offline
  items : t.items = s.items
  cycle : t.time.cycle = s.time.cycle + 1

/-- The boundary of s after its due order o has been declared inapplicable. -/
structure Declared (s : State) (o : Order) (t : State) : Prop where
  orders : t.orders = s.retiredOrders o
  inapplicable : t.counter .ordersInapplicable = min 4294967295 (s.counter .ordersInapplicable + 1)
  applied : t.counter .ordersApplied = s.counter .ordersApplied
  runStart : t.drive.runStart = s.drive.runStart
  state : s.run.state ≠ .run → t.run.state ≠ .run

theorem Untaken.opened (h : s.run.state ≠ .offline) : Untaken s s.settle.opened := by
  have hu : Unordered s.settle s.settle.opened := Moves.unordered s.settle.opened_moves
  refine ⟨⟨hu.orders, hu.runStart, hu.counters, hu.state, hu.paused, hu.countdown⟩, ?_, s.settle.opened_items, ?_⟩
  · exact fun e => h ((s.settle.opened_moves (A := noOrder)).offline_iff.mp e)
  · obtain ⟨_, _, _, _, _, _, _, _, e⟩ := s.settle.opened_frame; rw [e]; rfl

theorem Untaken.act (h : Untaken s t) (ha : a ≠ .orders) : Untaken s (t.act a) where
  toUnordered := h.toUnordered.trans (Moves.unordered (t.act_moves_noOrder ha))
  online e := h.online ((t.act_moves_noOrder ha).offline_iff.mp e)
  items := (State.items_of_steady (State.steady_of_quiet (t.act_quiet a))).trans h.items
  cycle := (State.cycle_of_quiet (t.act_quiet a)).trans h.cycle

theorem Declared.act (h : Declared s o t) (ha : a ≠ .orders) : Declared s o (t.act a) := by
  have hu := Moves.unordered (t.act_moves_noOrder ha)
  exact ⟨hu.orders.trans h.orders, (hu.counters _ (by decide)).trans h.inapplicable,
    (hu.counters _ (by decide)).trans h.applied, hu.runStart.trans h.runStart,
    fun hs e => h.state hs ((hu.state (by rw [e]; decide)).symm.trans e)⟩

/-- An order out of place does not fit where it is taken (R118). -/
theorem Untaken.unfit (h : Untaken s t) (ho : s.outOfPlace o) : t.unfit o := by
  unfold State.outOfPlace at ho
  unfold State.unfit
  cases hk : o.kind <;> rw [hk] at ho
  case start =>
    rintro ⟨h1, h2⟩
    have hs := h.state (by rw [h1]; decide)
    rcases ho with ho | ho
    · exact ho (hs.symm.trans h1)
    · exact ho ((h.countdown h1).symm.trans h2)
  case pause => exact fun e => ho ((h.state (by rw [e]; decide)).symm.trans e)
  case resume => exact fun e => (h.paused e).elim ho.1 ho.2
  case level =>
    exact ⟨fun e => ho.1 ((h.state (by rw [e]; decide)).symm.trans e),
      fun e => ho.2.1 ((h.state (by rw [e]; decide)).symm.trans e), fun e => (h.paused e).elim ho.2.2 ho.2.1⟩

/-- The one due order, out of place, is declared inapplicable (R118). -/
theorem Untaken.takeDueOrders (h : Untaken s t) (ho : s.outOfPlace o)
    (hdue : s.orders.pending.filter (fun x => !later x.effective (s.time.cycle + 1)) = [o]) :
    t.takeDueOrders = (t.retireOrder o).declareInapplicable o := by
  rw [State.takeDueOrders_one h.online (by rw [h.orders, State.due_of_cycle h.cycle, hdue])]
  exact State.settleOrder_unfit (t := t.retireOrder o) (h.unfit ho)

theorem Untaken.declared (h : Untaken s t) : Declared s o ((t.retireOrder o).declareInapplicable o) where
  orders := by
    have hi : t.ownNumber = s.items.station := congrArg Items.station h.items
    rw [State.declareInapplicable_orders, State.retiredOrders, ← h.orders, ← hi]
    rfl
  inapplicable := by
    have hc := h.counters .ordersInapplicable (by decide)
    rw [State.declareInapplicable, State.post_counter _ _ _ _ (by decide), State.bump_counter, ← hc]
    rfl
  applied := by
    rw [State.declareInapplicable, State.post_counter _ _ _ _ (by decide)]
    exact (State.count_counter_other _ .ordersInapplicable .ordersApplied 1 (by decide)).trans (h.counters _ (by decide))
  runStart := by rw [State.declareInapplicable_drive]; exact h.runStart
  state hs := by
    rw [State.declareInapplicable_run]
    exact fun e => hs ((h.state (by rw [show t.run.state = .run from e]; decide)).symm.trans e)

end Sys2Proof.Machine

namespace Sys2Proof.Machine

variable {s t u : State} {o : Order} {a : BoundaryAction} {first : List BoundaryAction}

/-! ### The boundary of an order out of place -/

/-- What every act keeps, with the acts to come at hand, stands at the end of the boundary. -/
theorem boundary_course {P : List BoundaryAction → State → Prop}
    (step : ∀ a l t, a ∉ l → P (a :: l) t → P l (t.act a)) (first : List BoundaryAction) {s : State}
    (h : P (orderedBy first boundaryActions) s.opened) : P [] (s.boundary first) := by
  have hfold : ∀ (l : List BoundaryAction) (t : State), l.Nodup → P l t → P [] (l.foldl State.act t) := by
    intro l
    induction l with
    | nil => exact fun _ _ h => h
    | cons a l ih =>
      intro t hl h
      obtain ⟨hn, hl⟩ := List.nodup_cons.mp hl
      exact ih (t.act a) hl (step a l t hn h)
  exact hfold _ _ ((Laws.boundary_acts_perm first).nodup_iff.mpr Laws.boundaryActions_nodup) h

/-- In any order of its acts, the boundary declares its one due order inapplicable when it is out of place (R118). -/
theorem State.boundary_declares (hs : s.run.state ≠ .offline) (ho : s.outOfPlace o)
    (hdue : s.orders.pending.filter (fun x => !later x.effective (s.time.cycle + 1)) = [o]) :
    Declared s o (s.settle.boundary first) := by
  have h : (BoundaryAction.orders ∈ ([] : List BoundaryAction) → Untaken s (s.settle.boundary first)) ∧
      (BoundaryAction.orders ∉ ([] : List BoundaryAction) → Declared s o (s.settle.boundary first)) := by
    refine boundary_course (P := fun l t => (.orders ∈ l → Untaken s t) ∧ (.orders ∉ l → Declared s o t))
      (fun a l t hn h => ?_) first ⟨fun _ => .opened hs, fun g => absurd (mem_boundaryOrder first _) g⟩
    by_cases ha : a = .orders
    · subst ha
      refine ⟨fun g => absurd g hn, fun _ => ?_⟩
      have hu := h.1 List.mem_cons_self
      rw [show t.act .orders = t.takeDueOrders from rfl, hu.takeDueOrders ho hdue]
      exact hu.declared
    · have e : BoundaryAction.orders ∈ a :: l ↔ BoundaryAction.orders ∈ l := by simp [Ne.symm ha]
      rw [e] at h
      exact ⟨fun g => (h.1 g).act ha, fun g => (h.2 g).act ha⟩
  exact h.2 List.not_mem_nil

/-! ### A calm boundary without ramps -/

/-- L and R of s stand, without descriptors. -/
def State.unramped (s t : State) : Prop :=
  t.drive.level = s.drive.level ∧ t.drive.ramp = s.drive.ramp ∧ t.drive.levelRamp = none ∧ t.drive.runRamp = none

theorem State.unramped_of_drive (h : s.unramped t) (e : u.drive = t.drive) : s.unramped u := by
  unfold State.unramped; rw [e]; exact h

/-- Without descriptors the stepping moves nothing (R22). -/
theorem State.stepRamps_drive (h1 : t.drive.levelRamp = none) (h2 : t.drive.runRamp = none) :
    t.stepRamps.drive = t.drive := by
  by_cases h : t.run.state = .offline ∨ t.run.state = .tripped
  · rw [State.stepRamps, if_pos h]
  · rw [not_or] at h
    rw [State.stepRamps_of_none h.1 h.2 h2]
    show t.drive.stepLevel = t.drive
    unfold Drive.stepLevel
    rw [h1]

theorem State.enterStandby_aside (t : State) : t.Aside t.enterStandby :=
  (State.changeState_aside _ t).trans (State.readyTest_aside _)

theorem State.assemblyTest_drive (t : State) : t.assemblyTest.drive = t.drive := by
  simp only [State.assemblyTest]
  split
  · split
    · split
      · exact (State.enterStandby_aside _).drive.trans rfl
      · rfl
    · rfl
  · rfl

theorem State.countdownCheck_drive (t : State) : t.countdownCheck.drive = t.drive := by
  unfold State.countdownCheck
  split
  · split
    · exact (State.returnToReady_aside _).drive.trans (Eq.trans rfl (t.post_aside _ _ _).drive)
    · rfl
  · rfl

/-- A calm boundary whose one due order is out of place leaves L and R without descriptors alone. -/
theorem State.boundary_unramped (hs : s.run.state ≠ .offline) (ho : s.outOfPlace o)
    (hdue : s.orders.pending.filter (fun x => !later x.effective (s.time.cycle + 1)) = [o]) (hcalm : s.calm)
    (h1 : s.drive.levelRamp = none) (h2 : s.drive.runRamp = none) : s.unramped (s.settle.boundary first) := by
  have hopen : s.unramped s.settle.opened := by
    obtain ⟨_, _, _, _, _, _, _, _, e⟩ := s.settle.opened_frame; rw [e]; exact ⟨rfl, rfl, h1, h2⟩
  refine (CalmFor.foldl (P := fun l t => s.unramped t ∧ (.orders ∈ l → Untaken s t)) (fun a l t hn hc h => ?_)
    ((Laws.boundary_acts_perm first).nodup_iff.mpr Laws.boundaryActions_nodup) (State.calm_opened hcalm _)
    ⟨hopen, fun _ => .opened hs⟩).1
  obtain ⟨hr, hu⟩ := h
  refine ⟨State.unramped_of_drive hr ?_, fun g => (hu (List.mem_cons_of_mem a g)).act (fun e => hn (e ▸ g))⟩
  cases ha : plainAct a
  · cases a with
    | assemblyTest => exact t.assemblyTest_drive
    | countdownCheck => exact t.countdownCheck_drive
    | orders =>
      rw [show t.act .orders = t.takeDueOrders from rfl, (hu List.mem_cons_self).takeDueOrders ho hdue,
        State.declareInapplicable_drive]
      rfl
    | rampStep => exact State.stepRamps_drive hr.2.2.1 hr.2.2.2
    | servoChecks | peerMiss | ringClosure | isolated | trim | frameBuild => cases ha
  · exact (hc.act_harmless ha).drive

end Sys2Proof.Machine

namespace Sys2Proof.Machine

variable {s t u : State} {o : Order} {a : BoundaryAction} {j : Station} {n : Nat}

/-! ### A countdown that a station fails (R77, R78) -/

/-- COUNTDOWN_ABORT as the boundary of s posts it for station j. -/
def State.abortEvent (s : State) (j : Station) : Event :=
  { kind := .countdownAbort, cycle := s.time.cycle + 1, detail1 := BitVec.ofNat 32 (stationNumber j)
    detail2 := if (s.peer j).state = .active then BitVec.ofNat 32 (s.peer j).last.runState.toNat else 0 }

/-- Whatever the order of its acts, the boundary of s has room in the event queue for the abort. -/
def State.roomy (s : State) : Prop := s.port.events = [] ∧ s.orders.pending.length ≤ 4

/-- The boundary of s before the countdown is aborted, with n events posted at the most. -/
structure Counting (s : State) (j : Station) (n : Nat) (t : State) : Prop where
  state : t.run.state = .countdown
  fails : stations.find? t.failsCountdown = some j
  peer : (t.peer j).state = (s.peer j).state ∧ (t.peer j).last = (s.peer j).last
  cycle : t.time.cycle = s.time.cycle + 1
  stopField : t.run.stopField = s.run.stopField
  record : t.run.record = s.run.record
  runStart : t.drive.runStart = s.drive.runStart
  count : t.counter .countdownAbort = s.counter .countdownAbort
  room : s.roomy → t.port.events.length ≤ n

/-- The boundary of s after the countdown has been aborted for station j. -/
structure Aborted (s : State) (j : Station) (t : State) : Prop where
  state : t.run.state = .ready ∨ t.run.state = .standby ∨ t.run.state = .assembly
  countdown : t.run.countdown = none
  stopField : t.run.stopField = s.run.stopField
  record : t.run.record = s.run.record
  runStart : t.drive.runStart = s.drive.runStart
  count : t.counter .countdownAbort = min 4294967295 (s.counter .countdownAbort + 1)
  event : s.roomy → s.abortEvent j ∈ t.port.events

/-- A posting leaves the events in the queue. -/
theorem State.post_events (k : EventKind) (x y : Word) (t : State) :
    ∃ es, (t.post k x y).port.events = t.port.events ++ es ∧ es.length ≤ 1 :=
  (State.post_harmless (J := fun _ => False) k x y t).events

theorem State.post_mem_events {k : EventKind} {x y : Word} {e : Event} (h : e ∈ t.port.events) :
    e ∈ (t.post k x y).port.events := by
  obtain ⟨es, he, -⟩ := t.post_events k x y
  rw [he]
  exact List.mem_append_left es h

theorem State.changeState_mem_events {r : RunState} {e : Event} (h : e ∈ t.port.events) :
    e ∈ (t.changeState r).port.events := by
  rw [State.changeState_port]
  exact State.post_mem_events h

/-! ### After the abort -/

theorem Aborted.of_same (h : Aborted s j t) (hr : u.run = t.run) (hd : u.drive.runStart = t.drive.runStart)
    (hc : u.counter .countdownAbort = t.counter .countdownAbort) (he : ∀ e ∈ t.port.events, e ∈ u.port.events) :
    Aborted s j u :=
  ⟨hr ▸ h.state, hr ▸ h.countdown, hr ▸ h.stopField, hr ▸ h.record, hd.trans h.runStart, hc.trans h.count,
    fun hs => he _ (h.event hs)⟩

theorem Aborted.changeState (h : Aborted s j t) {r : RunState} (hr : r = .ready ∨ r = .standby ∨ r = .assembly) :
    Aborted s j (t.changeState r) where
  state := hr
  countdown := by rw [State.changeState_countdown, h.countdown, ite_self]
  stopField := by rw [State.changeState_stopField]; exact h.stopField
  record := by rw [State.changeState_record]; exact h.record
  runStart := by rw [State.changeState_drive]; exact h.runStart
  count := (State.counter_of_tally (t.changeState_tally r) (by decide)).trans h.count
  event hs := State.changeState_mem_events (h.event hs)

theorem Aborted.readyTest (h : Aborted s j t) : Aborted s j t.readyTest := by
  rcases t.readyTest_cases with e | ⟨-, e⟩ | ⟨-, r, hr, e⟩ <;> rw [e]
  · exact h
  · exact h.changeState (.inl rfl)
  · exact h.changeState (.inr hr)

theorem Aborted.assemblyTest (h : Aborted s j t) : Aborted s j t.assemblyTest := by
  have hr : ∀ n, Aborted s j { t with run := { t.run with assembly := n } } := fun n =>
    ⟨h.state, h.countdown, h.stopField, h.record, h.runStart, h.count, h.event⟩
  have hb : Aborted s j (State.bring .assemblyComplete { t with run := { t.run with assembly := t.run.assembly + 1 } }) :=
    (hr _).of_same rfl rfl rfl fun _ he => he
  simp only [State.assemblyTest]
  split
  · split
    · split
      · exact (hb.changeState (.inr (.inl rfl))).readyTest
      · exact hr _
    · exact hr _
  · exact h

theorem Aborted.declare (h : Aborted s j t) (o : Order) : Aborted s j (t.declareInapplicable o) :=
  h.of_same (State.declareInapplicable_run _ _) (by rw [State.declareInapplicable_drive])
    ((State.post_counter _ _ _ _ (by decide)).trans (State.count_counter_other _ .ordersInapplicable _ 1 (by decide)))
    fun _ he => State.post_mem_events (t := t.bump .ordersInapplicable) he

theorem Aborted.takeOrder (h : Aborted s j t) (o : Order) : Aborted s j (t.takeOrder o) := by
  have hu : (t.retireOrder o).unfit o := by
    have hr : (t.retireOrder o).run = t.run := rfl
    unfold State.unfit
    rw [hr]
    rcases h.state with h | h | h <;> rw [h] <;> cases o.kind <;> simp
  rw [State.takeOrder, State.settleOrder_unfit hu]
  exact Aborted.declare (t := t.retireOrder o) (h.of_same rfl rfl rfl fun _ he => he) o

/-- A step of R in a state that no report changes leaves run controller and port (R25). -/
theorem State.stepRamps_still (h1 : t.run.state ≠ .pausing) (h2 : t.run.state ≠ .stopping) :
    t.stepRamps.run = t.run ∧ t.stepRamps.port = t.port ∧ t.stepRamps.drive.runStart = t.drive.runStart ∧
    t.stepRamps.time = t.time := by
  have hr : ∀ (v : State) (r : RampReport), v.run.state ≠ .pausing → v.run.state ≠ .stopping →
      v.takeReport r = v ∨ v.takeReport r = v.bring .rampEnd := by
    intro v r h1 h2
    cases r with
    | nothing => exact .inl rfl
    | rampAtZero => exact .inr (if_neg h1)
    | descentAtZero => exact .inr (if_neg h2)
  have hd : t.levelStepped.runStepped.drive.runStart = t.drive.runStart := by
    rw [State.runStepped, Drive.stepRun_frame, State.levelStepped, Drive.stepLevel_frame]
  by_cases h : t.run.state = .offline ∨ t.run.state = .tripped
  · rw [State.stepRamps, if_pos h]; exact ⟨rfl, rfl, rfl, rfl⟩
  · rw [not_or] at h
    rw [State.stepRamps_eq h.1 h.2, State.stepRunRamp_eq]
    rcases hr t.levelStepped.runStepped (t.levelStepped.drive.stepRun t.levelStepped.items.stopStep).2 h1 h2 with e | e <;> rw [e]
    · exact ⟨rfl, rfl, hd, rfl⟩
    · exact ⟨rfl, rfl, hd, rfl⟩

theorem Aborted.harmless {J : Station → Prop} (h : Aborted s j t) (g : Harmless J n t u) : Aborted s j u := by
  obtain ⟨es, he, -⟩ := g.events
  exact h.of_same g.run (by rw [g.drive]) (State.counter_of_tally g.tally (by decide))
    fun x hx => by rw [he]; exact List.mem_append_left es hx

/-- After the abort no act of a calm boundary takes it back. -/
theorem Aborted.act {l : List BoundaryAction} (h : Aborted s j t) (hc : CalmFor (a :: l) t) : Aborted s j (t.act a) := by
  have hs : t.run.state ≠ .countdown ∧ t.run.state ≠ .pausing ∧ t.run.state ≠ .stopping := by
    rcases h.state with e | e | e <;> rw [e] <;> decide
  cases ha : plainAct a
  · cases a with
    | rampStep =>
      obtain ⟨g1, g2, g3, -⟩ := State.stepRamps_still hs.2.1 hs.2.2
      exact h.of_same g1 g3 (by show t.stepRamps.counter _ = _; unfold State.counter; rw [g2])
        fun e he => by show e ∈ t.stepRamps.port.events; rw [g2]; exact he
    | assemblyTest => exact h.assemblyTest
    | countdownCheck => rw [show t.act .countdownCheck = t from State.countdownCheck_of_ne hs.1]; exact h
    | orders =>
      show Aborted s j t.takeDueOrders
      unfold State.takeDueOrders
      split
      · exact List.foldlRecOn (motive := fun v : State => Aborted s j v) _ _ h fun v hv o _ => hv.takeOrder o
      · exact h
    | servoChecks | peerMiss | ringClosure | isolated | trim | frameBuild => cases ha
  · exact h.harmless (hc.act_harmless ha)

end Sys2Proof.Machine

namespace Sys2Proof.Machine

variable {s t u : State} {o : Order} {a : BoundaryAction} {j : Station} {m n : Nat} {first : List BoundaryAction}

/-! ### Before the abort -/

theorem Counting.of_same (h : Counting s j n t) (hr : u.run = t.run) (hp : ∀ k, (u.peer k).state = (t.peer k).state ∧
    (u.peer k).expected = (t.peer k).expected ∧ (u.peer k).shares = (t.peer k).shares ∧ (u.peer k).last = (t.peer k).last)
    (hy : u.time.cycle = t.time.cycle) (hd : u.drive.runStart = t.drive.runStart)
    (hc : u.counter .countdownAbort = t.counter .countdownAbort)
    (he : s.roomy → u.port.events.length ≤ t.port.events.length + m) : Counting s j (n + m) u where
  state := hr ▸ h.state
  fails := by
    rw [show u.failsCountdown = t.failsCountdown from funext fun k => State.failsCountdown_congr (by rw [hr]) hp k]
    exact h.fails
  peer := ⟨(hp j).1.trans h.peer.1, (hp j).2.2.2.trans h.peer.2⟩
  cycle := hy.trans h.cycle
  stopField := hr ▸ h.stopField
  record := hr ▸ h.record
  runStart := hd.trans h.runStart
  count := hc.trans h.count
  room hs := (he hs).trans (Nat.add_le_add_right (h.room hs) m)

theorem Counting.harmless {J : Station → Prop} (h : Counting s j n t) (g : Harmless J m t u) : Counting s j (n + m) u := by
  obtain ⟨es, he, hm⟩ := g.events
  refine h.of_same g.run g.peers g.cycle (by rw [g.drive]) (State.counter_of_tally g.tally (by decide)) fun _ => ?_
  rw [he, List.length_append]
  exact Nat.add_le_add_left hm _

theorem Counting.stepRamps (h : Counting s j n t) : Counting s j n t.stepRamps := by
  obtain ⟨h1, h2, h3, h4⟩ := State.stepRamps_still (t := t) (by rw [h.state]; decide) (by rw [h.state]; decide)
  have hp : t.stepRamps.peers = t.peers := congrArg Prod.fst t.stepRamps_rigid
  have hk : ∀ k, t.stepRamps.peer k = t.peer k := fun k => by unfold State.peer; rw [hp]
  exact h.of_same (m := 0) h1 (fun k => by rw [hk k]; exact ⟨rfl, rfl, rfl, rfl⟩) (by rw [h4]) h3
    (by unfold State.counter; rw [h2]) (fun _ => by rw [h2]; exact Nat.le_refl _)

/-- The countdown check names the first station that fails it, and aborts the countdown (R77, R78). -/
theorem Counting.countdownCheck (h : Counting s j n t) (hn : s.roomy → n < 32) : Aborted s j t.countdownCheck := by
  have hword : (word (if (t.peer j).state = .active then (t.peer j).last.runState.toNat else 0)) =
      if (s.peer j).state = .active then BitVec.ofNat 32 (s.peer j).last.runState.toNat else 0 := by
    rw [h.peer.1, h.peer.2]
    split <;> rfl
  have he : t.countdownCheck = t.abortCountdown j := by
    rw [State.countdownCheck, if_pos h.state, h.fails]
  rw [he]
  refine Aborted.readyTest (t := State.changeState .ready _) ⟨.inl rfl, ?_, ?_, ?_, ?_, ?_, fun hs => ?_⟩
  · rw [State.changeState_countdown, if_pos]
    exact (congrArg Run.state (State.post_run _ _ _ _)).trans h.state
  · rw [State.changeState_stopField]
    exact (congrArg Run.stopField (State.post_run _ _ _ _)).trans h.stopField
  · rw [State.changeState_record]
    exact (congrArg Run.record (State.post_run _ _ _ _)).trans h.record
  · rw [State.changeState_drive]
    exact (congrArg Drive.runStart (State.post_aside _ _ _ t).drive).trans h.runStart
  · rw [State.counter_of_tally (State.changeState_tally _ _) (by decide), State.bump_counter,
      State.post_counter _ _ _ _ (by decide), h.count]
    rfl
  · refine State.changeState_mem_events ?_
    rcases t.post_cases .countdownAbort (word (stationNumber j))
      (word (if (t.peer j).state = .active then (t.peer j).last.runState.toNat else 0)) with ⟨-, e⟩ | ⟨hf, -⟩
    · show _ ∈ (t.post _ _ _).port.events
      rw [e, hword, h.cycle]
      exact List.mem_append_right _ List.mem_cons_self
    · exact absurd ((h.room hs).trans_lt (hn hs)) (Nat.not_lt.mpr hf)

/-- Until the abort every order but the START of the countdown is inapplicable; that START makes the check itself (R114, R118). -/
theorem Counting.takeOrder (h : Counting s j n t) (hn : s.roomy → n < 32) (o : Order) :
    Counting s j (n + 1) (t.takeOrder o) ∨ Aborted s j (t.takeOrder o) := by
  have hr : Counting s j n (t.retireOrder o) :=
    h.of_same (m := 0) rfl (fun _ => ⟨rfl, rfl, rfl, rfl⟩) rfl rfl rfl fun _ => Nat.le_refl _
  by_cases hu : (t.retireOrder o).unfit o
  · left
    rw [State.takeOrder, State.settleOrder_unfit hu]
    have ha := State.declareInapplicable_aside o (t.retireOrder o)
    have hp : ∀ k, ((t.retireOrder o).declareInapplicable o).peer k = (t.retireOrder o).peer k := fun k => by
      unfold State.peer; rw [ha.peers]
    refine hr.of_same (State.declareInapplicable_run _ _) (fun k => by rw [hp k]; exact ⟨rfl, rfl, rfl, rfl⟩)
      (by rw [ha.time]) (by rw [ha.drive]) ((State.post_counter _ _ _ _ (by decide)).trans
        (State.count_counter_other _ .ordersInapplicable _ 1 (by decide))) fun _ => ?_
    obtain ⟨es, e, hm⟩ := State.post_events .orderInapplicable o.identityWord (word (t.retireOrder o).run.state.code)
      ((t.retireOrder o).bump .ordersInapplicable)
    rw [State.declareInapplicable, e, List.length_append]
    exact Nat.add_le_add_left hm _
  · right
    have hk : o.kind = .start ∧ ((t.retireOrder o).run.state = .countdown ∧ (t.retireOrder o).run.countdown = some o.id) := by
      unfold State.unfit at hu
      rw [show (t.retireOrder o).run.state = .countdown from h.state] at hu ⊢
      cases ho : o.kind <;> rw [ho] at hu <;> simp at hu ⊢
      exact hu
    have hc := hr.countdownCheck hn
    have hs : (t.retireOrder o).countdownCheck.run.state ≠ .countdown := by
      rcases hc.state with e | e | e <;> rw [e] <;> decide
    have he : t.takeOrder o = (t.retireOrder o).countdownCheck.declareInapplicable o := by
      rw [State.takeOrder, State.settleOrder, hk.1]
      show State.takeStart o _ = _
      rw [State.takeStart, if_pos hk.2]
      exact if_neg hs
    rw [he]
    exact hc.declare o

theorem Counting.takeOrders (l : List Order) (h : Counting s j n t ∨ Aborted s j t) (hn : s.roomy → n + l.length ≤ 32) :
    Counting s j (n + l.length) (l.foldl (fun t o => t.takeOrder o) t) ∨
      Aborted s j (l.foldl (fun t o => t.takeOrder o) t) := by
  induction l generalizing n t with
  | nil => exact h
  | cons o l ih =>
    have hl : n + (o :: l).length = n + 1 + l.length := by rw [List.length_cons]; omega
    rw [hl] at hn ⊢
    refine ih ?_ hn
    rcases h with h | h
    · exact h.takeOrder (fun hs => by have := hn hs; omega) o
    · exact .inr (h.takeOrder o)

/-! ### The boundary of the abort -/

/-- How many events an act can post before the countdown check at a roomy boundary: RING OPEN of two lanes (R182), and one event
of each due order (R118). -/
def beforeAbort (a : BoundaryAction) : Nat := actEvents a + if a = .orders then 4 else 0

theorem beforeAbort_sum (first : List BoundaryAction) : ((orderedBy first boundaryActions).map beforeAbort).sum = 6 := by
  rw [((Laws.boundary_acts_perm first).map beforeAbort).sum_eq]
  decide

/-- What stands between the acts of the boundary with l to come: the countdown with room for its abort, or the abort. -/
def abortAt (s : State) (j : Station) (l : List BoundaryAction) (t : State) : Prop :=
  (∃ n, Counting s j n t ∧ (s.roomy → n + (l.map beforeAbort).sum ≤ 6) ∧ .countdownCheck ∈ l ∧
    (.orders ∈ l → Untaken s t)) ∨ Aborted s j t

theorem abortAt_act {l : List BoundaryAction} (hn : a ∉ l) (hc : CalmFor (a :: l) t) (h : abortAt s j (a :: l) t) :
    abortAt s j l (t.act a) := by
  rcases h with ⟨n, h, hroom, hcheck, hu⟩ | h
  · rw [List.map_cons, List.sum_cons] at hroom
    have hlater : a ≠ .countdownCheck → .countdownCheck ∈ l := fun ha => (List.mem_cons.mp hcheck).resolve_left (Ne.symm ha)
    have huntaken : .orders ∈ l → Untaken s (t.act a) := fun g =>
      (hu (List.mem_cons_of_mem a g)).act (fun e => hn (e ▸ g))
    cases ha : plainAct a
    · cases a with
      | rampStep => exact .inl ⟨n, h.stepRamps, by simpa [beforeAbort, actEvents] using hroom, hlater nofun, huntaken⟩
      | assemblyTest =>
        have he : t.act .assemblyTest = t := State.assemblyTest_of_ne (by rw [h.state]; decide)
        rw [he] at huntaken ⊢
        exact .inl ⟨n, h, by simpa [beforeAbort, actEvents] using hroom, hlater nofun, huntaken⟩
      | countdownCheck => exact .inr (h.countdownCheck fun hs => by have := hroom hs; omega)
      | orders =>
        have hp : s.roomy → (t.orders.pending.filter t.due).length ≤ 4 := fun hs =>
          (List.length_filter_le _ _).trans (by rw [(hu List.mem_cons_self).orders]; exact hs.2)
        have hon : t.online = true := by rw [State.online, h.state]; rfl
        rw [show t.act .orders = t.takeDueOrders from rfl, State.takeDueOrders, if_pos hon]
        refine (Counting.takeOrders _ (.inl h) fun hs => ?_).imp_left fun g => ⟨_, g, fun hs => ?_, hlater nofun, fun e => absurd e hn⟩
        · have := hp hs; have := hroom hs; omega
        · have := hp hs; have := hroom hs; simp only [beforeAbort, actEvents, if_true] at this; omega
      | servoChecks | peerMiss | ringClosure | isolated | trim | frameBuild => cases ha
    · refine .inl ⟨_, h.harmless (hc.act_harmless ha), fun hs => ?_, hlater (by rintro rfl; cases ha), huntaken⟩
      have := hroom hs
      have : actEvents a ≤ beforeAbort a := Nat.le_add_right _ _
      omega
  · exact .inr (h.act hc)

theorem State.failsCheck_iff (s : State) (k : Station) : s.failsCheck k ↔ s.failsCountdown k = true := by
  simp only [State.failsCheck, State.failsCountdown, Bool.and_eq_true, Bool.or_eq_true, bne_iff_ne, Bool.not_eq_true', and_assoc]

/-- The first station that fails the check is the one that the check finds (R77). -/
theorem State.find_fails (h : s.failsCheck j) (hmin : ∀ k : Station, k.val < j.val → ¬ s.failsCheck k) :
    stations.find? s.failsCountdown = some j := by
  rw [stations_eq, List.find?_eq_some_iff_getElem]
  refine ⟨(s.failsCheck_iff j).mp h, j.val, by simp, by simp, fun k hk => ?_⟩
  have := hmin ⟨k, hk.trans j.isLt⟩ hk
  rw [s.failsCheck_iff] at this
  simpa using this

theorem State.opened_tally (s : State) : s.opened.tally = s.tally := by
  obtain ⟨_, _, _, e⟩ := s.openCycle.latchFeedback.countPulse_frame
  obtain ⟨-, -, -, -, -, -, -, -, -, ht⟩ := State.gear_eq_iff.mp s.openCycle.latchFeedback_gear
  rw [State.opened, e]
  exact ht

theorem Counting.opened (hs : s.run.state = .countdown) (h : stations.find? s.failsCountdown = some j) :
    Counting s j 0 s.settle.opened := by
  have hc : s.settle.opened.counter .countdownAbort = s.counter .countdownAbort :=
    State.counter_of_tally s.settle.opened_tally (by decide)
  obtain ⟨_, _, _, _, _, _, _, _, e⟩ := s.settle.opened_frame
  rw [e] at hc ⊢
  exact ⟨hs, h, ⟨rfl, rfl⟩, rfl, rfl, rfl, rfl, hc, fun hr => hr.1 ▸ Nat.le_refl 0⟩

/-- The calm boundary of a countdown that station j fails first ends with the countdown aborted for it, in any order of its acts. -/
theorem State.boundary_aborts (hcalm : s.calm) (hs : s.run.state = .countdown) (h : s.failsCheck j)
    (hmin : ∀ k : Station, k.val < j.val → ¬ s.failsCheck k) : Aborted s j (s.settle.boundary first) := by
  have hstart : abortAt s j (orderedBy first boundaryActions) s.settle.opened :=
    .inl ⟨0, .opened hs (State.find_fails h hmin), fun _ => by rw [beforeAbort_sum], mem_boundaryOrder first _,
      fun _ => .opened (by rw [hs]; decide)⟩
  have hend : abortAt s j [] (s.settle.boundary first) :=
    CalmFor.foldl (P := abortAt s j) (fun _ _ _ hn hc g => abortAt_act hn hc g)
      ((Laws.boundary_acts_perm first).nodup_iff.mpr Laws.boundaryActions_nodup) (State.calm_opened hcalm _) hstart
  rcases hend with ⟨n, -, -, g, -⟩ | g
  · exact absurd g List.not_mem_nil
  · exact g

/-- Settles O30: a fitting order waits until its act and then begins its ramp; an order out of place stays so until its act; a
countdown whose check fails stands until the check, or until the START that makes it. -/
theorem dueOrderIsApplied : Obligations.DueOrderIsApplied := by
  refine ⟨fun s first o hc hm hcalm hdue => ⟨fun hs hk hi hr hp => ?_, fun hs hk hd hr => ?_, fun hs hk hr => ?_,
    fun hs hk => ?_⟩, fun s first o hc hm hs hdue ho => ?_, fun s first j hc hm hcalm hs h hmin => ?_⟩
  · have h := Waits.ramped (first := first) hcalm hdue (by rw [hk]; decide)
      (Waits.opened (o := o) (by rw [State.fits, hk]; exact ⟨hs, hi⟩) (fun _ => Drive.rising_of_none hr)
        fun _ j => State.failsCountdown_of_shown (hp j))
    have hne : o.kind ≠ .pause := by rw [hk]; decide
    have hramp : s.orderedRamp o = { start := 0, target := 32768, length := o.a, step := 0 } := if_neg hne
    exact ⟨_, State.boundary_exec hc hm first, h.running hne, h.countdown hk, h.pending, (h.level hk).1, (h.level hk).2,
      h.runStart hne, h.ramp.trans (by rw [hramp]), h.runRamp.trans (by rw [hramp])⟩
  · have h := Waits.ramped (first := first) hcalm hdue (by rw [hk]; decide)
      (Waits.opened (o := o) (by rw [State.fits, hk]; exact hs) (fun _ => ⟨hd, hr⟩) (by rw [hk]; nofun))
    have hramp : s.orderedRamp o = { start := s.drive.ramp, target := 0, length := o.a, step := 0 } := if_pos hk
    refine ⟨_, State.boundary_exec hc hm first, h.pending, h.ramp.trans (by rw [hramp]),
      fun hne => (h.pausing hk).resolve_right fun e => hne e.2, fun ha => ⟨h.ended hk ha, ?_⟩⟩
    exact h.ramp.trans ((State.orderedRamp_pause hk).2 ha)
  · have h := Waits.ramped (first := first) hcalm hdue (by rw [hk]; decide)
      (Waits.opened (o := o) (by rw [State.fits, hk]; exact hs) (fun _ => Drive.rising_of_none hr) (by rw [hk]; nofun))
    have hne : o.kind ≠ .pause := by rw [hk]; decide
    have hramp : s.orderedRamp o = { start := 0, target := 32768, length := o.a, step := 0 } := if_neg hne
    exact ⟨_, State.boundary_exec hc hm first, h.running hne, h.pending, h.runStart hne, h.ramp.trans (by rw [hramp])⟩
  · have h := Waits.leveled (first := first) hcalm hdue hk
      (Waits.opened (o := o) (by rw [State.fits, hk]; exact hs) (fun e => absurd hk e) (by rw [hk]; nofun))
    exact ⟨_, State.boundary_exec hc hm first, h.pending, h.level, h.levelRamp⟩
  · have hd := State.boundary_declares (first := first) hs ho hdue
    exact ⟨_, State.boundary_exec hc hm first, hd.orders, hd.inapplicable, hd.applied, hd.runStart, hd.state,
      fun hcalm h1 h2 => State.boundary_unramped hs ho hdue hcalm h1 h2⟩
  · have ha := State.boundary_aborts (first := first) hcalm hs h hmin
    exact ⟨_, State.boundary_exec hc hm first, ha.countdown, ha.state, ha.count, ha.stopField, ha.record, ha.runStart,
      fun h1 h2 => ha.event ⟨h1, h2⟩⟩

end Sys2Proof.Machine

namespace Sys2Proof.Machine

variable {s t u : State}

/-! ### The depot: what stops and trips move of store, schedule unit and ring -/

/-- What the laws of store and schedule speak of: drive store, chunk of the supervisor, schedule unit. -/
def State.stock (s : State) : Words × Option Chunk × Sched := (s.store, s.arb.chunk, s.sched)

/-- The stock with the ring ports. -/
def State.depot (s : State) : (Words × Option Chunk × Sched) × Ring := (s.stock, s.ring)

theorem State.depot_eq_iff : t.depot = s.depot ↔ t.stock = s.stock ∧ t.ring = s.ring := Prod.ext_iff

/-- What an act beside the transfers, the schedule commands and the consumption can do to the depot: nothing, the reader hold
(R36), or a rewind (R49). -/
inductive Rewind : State → State → Prop
  | still {s t : State} (h : t.depot = s.depot) : Rewind s t
  | hold (s : State) (b : Bool) : Rewind s (s.setHold b)
  | rewind (s : State) : Rewind s s.rewind

/-- A row of them. -/
def Rewinds : State → State → Prop := Relation.ReflTransGen Rewind

theorem Rewinds.refl (s : State) : Rewinds s s := Relation.ReflTransGen.refl

theorem Rewinds.trans (h : Rewinds s t) (g : Rewinds t u) : Rewinds s u := Relation.ReflTransGen.trans h g

theorem Rewinds.still (h : t.depot = s.depot) : Rewinds s t := Relation.ReflTransGen.single (.still h)

/-- An act behind a change that leaves the depot. -/
theorem Rewinds.after (h : Rewinds t u) (e : t.depot = s.depot) : Rewinds s u := (Rewinds.still e).trans h

theorem Rewinds.keeps {P : State → Prop} (hP : ∀ {s t}, Rewind s t → P s → P t) (h : Rewinds s t) (hs : P s) : P t := by
  induction h with
  | refl => exact hs
  | tail _ m ih => exact hP m ih

theorem Rewinds.foldl {α : Type} (f : State → α → State) (h : ∀ t a, Rewinds t (f t a)) (l : List α) (s : State) :
    Rewinds s (l.foldl f s) :=
  List.foldlRecOn (motive := fun t : State => Rewinds s t) l f (.refl s) fun t ht a _ => ht.trans (h t a)

end Sys2Proof.Machine

namespace Sys2Proof.Machine

variable (s : State)

/-! ### Events, run states and orders leave the depot -/

theorem State.post_depot (k : EventKind) (a b : Word) : (s.post k a b).depot = s.depot := by
  unfold State.post; split <;> rfl

theorem State.bumpPost_depot (c : Counter) (k : EventKind) (a b : Word) : ((s.bump c).post k a b).depot = s.depot :=
  State.post_depot _ k a b

theorem State.changeState_depot (r : RunState) : (s.changeState r).depot = s.depot := s.post_depot _ _ _

theorem State.readyTest_depot : s.readyTest.depot = s.depot := by
  rcases s.readyTest_cases with e | ⟨-, e⟩ | ⟨-, r, -, e⟩ <;> rw [e]
  · exact s.changeState_depot _
  · exact s.changeState_depot r

theorem State.enterStandby_depot : s.enterStandby.depot = s.depot := (State.readyTest_depot _).trans (s.changeState_depot _)

theorem State.returnToReady_depot : s.returnToReady.depot = s.depot := (State.readyTest_depot _).trans (s.changeState_depot _)

theorem State.reportIncomplete_depot : s.reportIncomplete.depot = s.depot := by
  unfold State.reportIncomplete
  split
  · rfl
  · exact s.changeState_depot _
  · exact s.changeState_depot _
  · rfl

theorem State.noteRequest_depot (q : StopRequest) : (s.noteRequest q).depot = s.depot := by
  simp only [State.noteRequest]
  split
  · exact s.bumpPost_depot _ _ _ _
  · split
    · rfl
    · exact s.bumpPost_depot _ _ _ _

theorem State.assemblyTest_depot : s.assemblyTest.depot = s.depot := by
  simp only [State.assemblyTest]
  split
  · split
    · split
      · exact State.enterStandby_depot _
      · rfl
    · rfl
  · rfl

theorem State.countdownCheck_depot : s.countdownCheck.depot = s.depot := by
  unfold State.countdownCheck
  split
  · split
    · exact (State.returnToReady_depot _).trans (s.post_depot _ _ _)
    · rfl
  · rfl

theorem State.onPeer_depot (j : Station) (f : Peer → Peer) : (s.onPeer j f).depot = s.depot := rfl

theorem State.emptyWindows_depot : s.emptyWindows.depot = s.depot := by
  unfold State.emptyWindows
  exact foldl_keeps State.depot _ (fun t j => t.onPeer_depot j _) stations s

/-- The run controller is no part of the depot. -/
theorem State.run_depot (r : Run) : State.depot { s with run := r } = s.depot := rfl

theorem State.enterCountdown_depot (i : OrderId) : (s.enterCountdown i).depot = s.depot :=
  (State.emptyWindows_depot _).trans ((State.run_depot _ _).trans (s.changeState_depot .countdown))

theorem State.originate_depot (k : OrderKind) (a b : Nat) : (s.originate k a b).depot = s.depot := by
  simp only [State.originate]
  split
  · exact State.enterCountdown_depot _ _
  · rfl

theorem State.displace_depot (e w : Order) : (s.displace e w).depot = s.depot := by
  have hr : ∀ t : State, t.depot = s.depot →
      (if t.run.state = .countdown ∧ t.run.countdown = some e.id then t.returnToReady else t).depot = s.depot := by
    intro t ht
    split
    · exact t.returnToReady_depot.trans ht
    · exact ht
  have hb : (State.bump .ordersDisplaced { s with orders := { s.orders with pending := s.orders.pending.erase e } }).depot =
      s.depot := rfl
  unfold State.displace
  refine hr _ ?_
  generalize State.bump .ordersDisplaced { s with orders := { s.orders with pending := s.orders.pending.erase e } } = t at hb
  split
  · exact (State.post_depot _ _ _ _).trans hb
  · exact hb

theorem State.considerStart_depot (f : Frame) (o : Order) : (s.considerStart f o).depot = s.depot := by
  unfold State.considerStart
  split
  · split
    · exact s.enterCountdown_depot _
    · exact s.post_depot _ _ _
  · rfl

theorem State.insertAdopted_depot (f : Frame) (o : Order) : (s.insertAdopted f o).depot = s.depot :=
  (State.considerStart_depot _ f o).trans (State.bumpPost_depot _ _ _ _ _)

theorem State.noteApplied_depot (o : Order) : (s.noteApplied o).depot = s.depot := s.bumpPost_depot _ _ _ _

theorem State.declareInapplicable_depot (o : Order) : (s.declareInapplicable o).depot = s.depot := s.bumpPost_depot _ _ _ _

/-! ### The peer table and the timebase leave it -/

theorem State.setPeerState_depot (j : Station) (p : PeerState) (c : Nat) : (s.setPeerState j p c).depot = s.depot := by
  simp only [State.setPeerState]
  split
  · rfl
  · exact State.post_depot _ _ _ _

theorem State.reportProfile_depot (j : Station) (b : Byte) : (s.reportProfile j b).depot = s.depot := by
  unfold State.reportProfile
  split
  · rfl
  · exact s.post_depot _ _ _

theorem State.recordFrame_depot (j : Station) (f : Frame) : (s.recordFrame j f).depot = s.depot := by
  simp only [State.recordFrame]
  split
  · exact State.setPeerState_depot _ _ _ _
  · rfl

theorem State.writeWindow_depot (j : Station) (f : Frame) : (s.writeWindow j f).depot = s.depot := by
  simp only [State.writeWindow]
  split
  · split <;> rfl
  · rfl

theorem State.recordOffset_depot (j : Station) (r : Int) : (s.recordOffset j r).depot = s.depot := by
  simp only [State.recordOffset]
  split <;> rfl

theorem State.takeOffset_depot (j : Station) (o : Int) : (s.takeOffset j o).depot = s.depot := by
  unfold State.takeOffset
  split
  · exact (State.readyTest_depot _).trans (s.setPeerState_depot _ _ _)
  · rfl

theorem State.computeTrim_depot : s.computeTrim.depot = s.depot := by
  simp only [State.computeTrim]
  split
  · split <;> rfl
  · rfl

theorem State.latchFeedback_depot : s.latchFeedback.depot = s.depot := by
  unfold State.latchFeedback
  split <;> rfl

end Sys2Proof.Machine

namespace Sys2Proof.Machine

variable (s : State)

/-! ### The stops rewind -/

theorem State.rewind_rewinds : Rewinds s s.rewind := Relation.ReflTransGen.single (.rewind s)

theorem State.setHold_rewinds (b : Bool) : Rewinds s (s.setHold b) := Relation.ReflTransGen.single (.hold s b)

theorem State.enterStopped_rewinds : Rewinds s s.enterStopped := (State.rewind_rewinds _).after (s.changeState_depot _)

theorem State.takeReport_rewinds (r : RampReport) : Rewinds s (s.takeReport r) := by
  cases r with
  | nothing => exact .refl s
  | rampAtZero =>
    simp only [State.takeReport]
    split
    · exact .still (State.changeState_depot _ _)
    · exact .still rfl
  | descentAtZero =>
    simp only [State.takeReport]
    split
    · exact (State.enterStopped_rewinds _).after rfl
    · exact .still rfl

theorem State.stepRunRamp_rewinds : Rewinds s s.stepRunRamp := (State.takeReport_rewinds _ _).after rfl

theorem State.firstStep_rewinds : Rewinds s s.firstStep := by
  unfold State.firstStep
  split
  · exact s.stepRunRamp_rewinds
  · exact .refl s

theorem State.beginRamp_rewinds (z : Bool) (x n : Nat) : Rewinds s (s.beginRamp z x n) := by
  unfold State.beginRamp
  split
  · exact .refl s
  · exact (State.firstStep_rewinds _).after rfl

theorem State.stepRamps_rewinds : Rewinds s s.stepRamps := by
  unfold State.stepRamps
  split
  · exact .refl s
  · exact (State.stepRunRamp_rewinds _).after rfl

theorem State.enterStopping_rewinds (q : StopRequest) : Rewinds s (s.enterStopping q) :=
  (State.firstStep_rewinds _).after ((State.changeState_depot _ _).trans (s.bumpPost_depot _ _ _ _))

theorem State.enterTripped_rewinds (q : StopRequest) : Rewinds s (s.enterTripped q) := by
  have ht : ∀ t : State, t.depot = s.depot →
      Rewinds s ((((t.setStopField q).changeState .tripped).freeze).setHold true).rewind := fun t ht =>
    ((State.setHold_rewinds _ true).trans (State.rewind_rewinds _)).after
      (show ((t.setStopField q).changeState .tripped).depot = s.depot from (State.changeState_depot _ _).trans ht)
  have hl : ((s.taken q).latch q).depot = s.depot := s.bumpPost_depot _ _ _ _
  unfold State.enterTripped
  dsimp only
  split
  · exact ht _ hl
  · exact ht _ hl

/-- All that a stop request can do to the depot is a reader hold and a rewind (R36, R49, R82). -/
theorem State.request_rewinds (q : StopRequest) : Rewinds s (s.request q) := by
  have hn : Rewinds s (s.countFurther.noteRequest q) := .still (State.noteRequest_depot _ q)
  have hs : Rewinds s (s.countFurther.enterStopping q) := (State.enterStopping_rewinds _ q).after rfl
  simp only [State.request]
  split
  case h_1 => exact .refl s
  case h_2 | h_11 | h_12 => exact .still rfl
  case h_3 => exact (State.enterTripped_rewinds _ q).after rfl
  case h_4 | h_5 | h_6 | h_13 => exact hn
  case h_7 => exact .still ((State.returnToReady_depot _).trans (State.bumpPost_depot _ _ _ _ _))
  case h_8 | h_9 | h_10 => exact hs

theorem State.requestLocal_rewinds (c : Cause) (n : Nat) : Rewinds s (s.requestLocal c n) := s.request_rewinds _

theorem State.isolatedTest_rewinds : Rewinds s s.isolatedTest := by
  unfold State.isolatedTest
  split
  · exact s.requestLocal_rewinds _ _
  · exact .refl s

/-! ### Orders -/

theorem State.placeAdopted_rewinds (f : Frame) (j : Station) (o : Order) : Rewinds s (s.placeAdopted f j o) := by
  unfold State.placeAdopted
  split
  · exact s.requestLocal_rewinds _ _
  · split
    · exact s.requestLocal_rewinds _ _
    · exact .still (s.insertAdopted_depot f o)

theorem State.adopt_rewinds (f : Frame) (j : Station) (o : Order) : Rewinds s (s.adopt f j o) := by
  unfold State.adopt
  split
  · exact .refl s
  split
  · exact .refl s
  split
  · exact .refl s
  split
  · exact (State.placeAdopted_rewinds _ f j o).after (s.displace_depot _ _)
  · split
    · exact s.requestLocal_rewinds _ _
    · exact s.placeAdopted_rewinds f j o

theorem State.takeOrderPart_rewinds (f : Frame) (j : Station) : Rewinds s (s.takeOrderPart f j) := by
  simp only [State.takeOrderPart]
  split
  · exact .still rfl
  · split
    · exact (State.adopt_rewinds _ f j _).after rfl
    · exact .still rfl

theorem State.applyStart_rewinds (o : Order) : Rewinds s (s.applyStart o) := by
  refine (State.beginRamp_rewinds _ _ _ _).after ?_
  show ((s.noteApplied o).changeState .run).depot = s.depot
  exact (State.changeState_depot _ _).trans (s.noteApplied_depot o)

theorem State.takeStart_rewinds (o : Order) : Rewinds s (s.takeStart o) := by
  simp only [State.takeStart]
  split
  · split
    · exact (State.applyStart_rewinds _ o).after s.countdownCheck_depot
    · exact .still ((State.declareInapplicable_depot _ o).trans s.countdownCheck_depot)
  · exact .still (s.declareInapplicable_depot o)

theorem State.applyLevel_depot (o : Order) : (s.applyLevel o).depot = s.depot := Eq.trans rfl (s.noteApplied_depot o)

theorem State.settleOrder_rewinds (o : Order) : Rewinds s (s.settleOrder o) := by
  have ha : ∀ (r : RunState) (z : Bool) (x n : Nat), Rewinds s (((s.noteApplied o).changeState r).beginRamp z x n) :=
    fun r z x n => (State.beginRamp_rewinds _ z x n).after ((State.changeState_depot _ r).trans (s.noteApplied_depot o))
  unfold State.settleOrder
  split
  case h_1 => exact s.takeStart_rewinds o
  case h_2 => exact ha _ _ _ _
  case h_3 =>
    exact (State.beginRamp_rewinds _ _ _ _).after ((State.changeState_depot _ _).trans (s.noteApplied_depot o))
  case h_4 | h_5 | h_6 => exact .still (s.applyLevel_depot o)
  case h_7 => exact .still (s.declareInapplicable_depot o)

theorem State.takeDueOrders_rewinds : Rewinds s s.takeDueOrders := by
  unfold State.takeDueOrders
  split
  · exact .foldl _ (fun t o => (State.settleOrder_rewinds _ o).after (t := t.retireOrder o) rfl) _ s
  · exact .refl s

/-! ### Peers -/

theorem State.rosterLoss_rewinds (j : Station) (c : Cause) (b : Bool) : Rewinds s (s.rosterLoss j c b) := by
  have h : (if b && !s.rosterComplete then s.reportIncomplete else s).depot = s.depot := by
    split
    · exact s.reportIncomplete_depot
    · rfl
  simp only [State.rosterLoss]
  generalize (if b && !s.rosterComplete then s.reportIncomplete else s) = t at h
  have hr := (t.requestLocal_rewinds c (stationNumber j)).after h
  split
  · split
    case h_1 | h_2 | h_3 | h_4 => exact hr
    case h_5 => exact .still h
  · exact .still h

theorem State.movePeer_rewinds (j : Station) (p : PeerState) (n : Nat) (c : Cause) : Rewinds s (s.movePeer j p n c) := by
  simp only [State.movePeer]
  split
  · exact (State.rosterLoss_rewinds _ _ _ _).after (s.setPeerState_depot j p n)
  · exact .still (s.setPeerState_depot j p n)

theorem State.restartPeer_rewinds (j : Station) (b : Byte) : Rewinds s (s.restartPeer j b) := by
  have h : ∀ (t : State) (p : PeerState), t.depot = s.depot → ((t.setPeerState j p 5).reportProfile j b).depot = s.depot :=
    fun t p ht => (State.reportProfile_depot _ j b).trans ((t.setPeerState_depot j p 5).trans ht)
  simp only [State.restartPeer]
  split
  · exact (State.rosterLoss_rewinds _ _ _ _).after (h _ _ rfl)
  · exact .still (h _ _ rfl)

theorem State.testProfile_rewinds (j : Station) (b : Byte) : Rewinds s (s.testProfile j b) := by
  simp only [State.testProfile]
  refine Rewinds.trans ?_ (.still (s := if (s.peer j).state = .unseen then s.admission j b
    else if s.profileChanged j b = true then s.restartPeer j b else s) rfl)
  split
  · exact .still ((State.reportProfile_depot _ j b).trans (s.setPeerState_depot _ _ _))
  · split
    · exact s.restartPeer_rewinds j b
    · exact .refl s

theorem State.skewCheck_rewinds (j : Station) (f : Frame) : Rewinds s (s.skewCheck j f) := by
  unfold State.skewCheck
  split
  · split
    · exact (State.requestLocal_rewinds _ _ _).after rfl
    · split
      · exact .refl s
      · split
        · exact .refl s
        · exact (State.requestLocal_rewinds _ _ _).after rfl
  · exact .refl s

theorem State.takeFrame_rewinds (j : Station) (f : Frame) (b : Bool) : Rewinds s (s.takeFrame j f b) := by
  have h : Rewinds s (if b then s.restartPeer j f.profile else s) := by
    split
    · exact s.restartPeer_rewinds _ _
    · exact .refl s
  exact (h.trans (State.testProfile_rewinds _ j _)).trans
    ((State.skewCheck_rewinds _ j f).after ((State.writeWindow_depot _ j f).trans (State.recordFrame_depot _ j f)))

theorem State.countMiss_rewinds (j : Station) : Rewinds s (s.countMiss j) := by
  simp only [State.countMiss]
  split
  · split
    · exact (State.movePeer_rewinds _ _ _ _ _).after rfl
    · exact .still rfl
  · exact .refl s

theorem State.updateStepRun_rewinds (j : Station) (o : Int) : Rewinds s (s.updateStepRun j o) := by
  unfold State.updateStepRun
  split
  · split
    · unfold State.takeStepLoss
      split
      · exact (State.movePeer_rewinds _ _ _ _ _).after rfl
      · exact .still rfl
    · exact .still rfl
  · exact .still rfl

theorem State.takeStopPart_rewinds (j : Station) (f : Frame) : Rewinds s (s.takeStopPart j f) := by
  simp only [State.takeStopPart]
  split
  · exact s.request_rewinds _
  · exact .refl s

/-! ### The servo side -/

theorem State.checkFeedback_rewinds : Rewinds s s.checkFeedback := by
  have hr : Rewinds s s.checkRange := by
    simp only [State.checkRange]
    split
    · exact .refl s
    · split
      · exact (State.requestLocal_rewinds _ _ _).after rfl
      · exact .still rfl
  have hl : ∀ t : State, Rewinds t t.checkLoss := by
    intro t
    unfold State.checkLoss
    split
    · exact (State.requestLocal_rewinds _ _ _).after rfl
    · exact .refl t
  unfold State.checkFeedback
  split
  · exact hr.trans (hl _)
  · exact .refl s

theorem State.setReady_rewinds (level : Bool) : Rewinds s (s.setReady level) := by
  have h : (s.readyShown level).depot = s.depot := State.post_depot _ _ _ _
  by_cases e : s.servo.ready = level
  · rw [s.setReady_of_eq e]; exact .refl s
  · rw [s.setReady_of_ne e]
    split
    · exact (State.requestLocal_rewinds _ _ _).after h
    · exact .still ((State.readyTest_depot _).trans h)

/-- Every act of a boundary but those of the ring ports leaves the depot or rewinds. -/
theorem State.act_rewinds {a : BoundaryAction} (h : a ≠ .ringClosure) (h' : a ≠ .frameBuild) : Rewinds s (s.act a) := by
  cases a with
  | servoChecks => exact s.checkFeedback_rewinds
  | rampStep => exact s.stepRamps_rewinds
  | assemblyTest => exact .still s.assemblyTest_depot
  | countdownCheck => exact .still s.countdownCheck_depot
  | orders => exact s.takeDueOrders_rewinds
  | trim => exact .still s.computeTrim_depot
  | peerMiss j => exact s.countMiss_rewinds j
  | ringClosure => exact absurd rfl h
  | isolated => exact s.isolatedTest_rewinds
  | frameBuild => exact absurd rfl h'

end Sys2Proof.Machine

namespace Sys2Proof.Machine

variable {s t u : State}

/-! ### The laws of store and schedule, by the parts they speak of -/

theorem State.stock_eq_iff : t.stock = s.stock ↔ t.store = s.store ∧ t.arb.chunk = s.arb.chunk ∧ t.sched = s.sched := by
  simp [State.stock]

theorem State.scheduleLaw_of_eq (hq : t.sched.queue = s.sched.queue) (hp : t.sched.head = s.sched.head)
    (hn : t.sched.next = s.sched.next) (h : s.scheduleLaw) : t.scheduleLaw := by
  unfold State.scheduleLaw at h ⊢
  rw [hq, hp, hn]
  exact h

theorem State.scheduleLaw_head {e : Entry} {rest : List Entry} {p : HeadPos} (hq : s.sched.queue = e :: rest)
    (hp : s.sched.head = some p) : s.scheduleLaw ↔
      s.sched.queue.length ≤ 64 ∧ (∀ x ∈ s.sched.queue, x.inRanges) ∧ p.sound e s.sched.next := by
  unfold State.scheduleLaw
  rw [hq, hp]

theorem State.scheduleLaw_empty (hq : s.sched.queue = []) : s.scheduleLaw ↔ s.sched.head = none := by
  unfold State.scheduleLaw
  rw [hq]
  cases s.sched.head <;> simp

/-- Each law of store and schedule that holds before a part of a step holds after it. -/
structure Stored (s t : State) : Prop where
  store : s.storeLaw → t.storeLaw
  schedule : s.scheduleLaw → t.scheduleLaw
  fifo : s.fifoLaw → t.fifoLaw

theorem Stored.refl (s : State) : Stored s s := ⟨id, id, id⟩

theorem Stored.trans (h : Stored s t) (g : Stored t u) : Stored s u :=
  ⟨g.store ∘ h.store, g.schedule ∘ h.schedule, g.fifo ∘ h.fifo⟩

theorem Stored.of_stock (h : t.stock = s.stock) : Stored s t := by
  obtain ⟨hw, hc, hs⟩ := State.stock_eq_iff.mp h
  refine ⟨fun h => ?_, State.scheduleLaw_of_eq (by rw [hs]) (by rw [hs]) (by rw [hs]), fun h => ?_⟩
  · unfold State.storeLaw at h ⊢
    rw [hw, hc, hs]; exact h
  · unfold State.fifoLaw at h ⊢
    rw [hs]; exact h

/-- A part of a step behind a change that leaves the stock. -/
theorem Stored.after (h : Stored t u) (e : t.stock = s.stock) : Stored s u := (Stored.of_stock e).trans h

/-- A part of a step that leaves the stock behind another. -/
theorem Stored.then (h : Stored s t) (e : u.stock = t.stock) : Stored s u := h.trans (.of_stock e)

theorem Stored.foldl {α : Type} (f : State → α → State) (h : ∀ t a, Stored t (f t a)) (l : List α) (s : State) :
    Stored s (l.foldl f s) :=
  List.foldlRecOn (motive := fun t : State => Stored s t) l f (.refl s) fun t ht a _ => ht.trans (h t a)

/-! ### The reader and the flush -/

/-- The laws of the store say of the outstanding burst that a shape is one of the 16. -/
theorem State.storeLaw_of_burst {b : Option Burst} {a : Option Requester} (hb : ∀ x, b = some x → x.shapeInRange)
    (h : s.storeLaw) :
    State.storeLaw { s with sched := { s.sched with burst := b }, arb := { s.arb with serving := a } } := by
  obtain ⟨h1, h2, h3, h4, h5, -⟩ := h
  exact ⟨h1, h2, h3, h4, h5, hb⟩

/-- What the reader does when it tests its conditions: nothing, or a burst of at most 256 samples, for which the FIFO has room (R34). -/
theorem State.fetch_cases (s : State) : s.fetch = s ∨ ∃ first n, s.fetch = s.requestBurst (.sample first n false) ∧
    s.sched.burst = none ∧ s.sched.fifo.length + n ≤ 1024 := by
  unfold State.fetch
  split
  · exact .inl rfl
  · rename_i r _
    split
    · rename_i h
      simp only [Bool.and_eq_true, Option.isNone_iff_eq_none, decide_eq_true_eq] at h
      obtain ⟨⟨-, hb⟩, hr⟩ := h
      exact .inr ⟨_, _, rfl, hb, by have := Nat.min_le_left 256 (r.entry.length - r.offset); omega⟩
    · exact .inl rfl

theorem State.fetch_stored (s : State) : Stored s s.fetch := by
  rcases s.fetch_cases with e | ⟨first, n, e, hb, hn⟩ <;> rw [e]
  · exact .refl s
  · exact ⟨State.storeLaw_of_burst (by rintro x ⟨⟩; trivial), id, fun h => ⟨hn, h.2⟩⟩

/-- A flush leaves what the schedule law speaks of. -/
theorem State.flush_scheduleLaw (h : s.scheduleLaw) : s.flush.scheduleLaw := (State.fetch_stored _).schedule h

/-- A burst with its void flag set brings no samples (R36). -/
theorem Burst.voided_incoming (c : Sched) (b : Option Burst) :
    Sched.incoming { c with burst := b.map Burst.voided } = 0 := by
  rcases b with _ | ⟨_, _, _⟩ | _ <;> rfl

/-- A flush leaves an empty FIFO without debt, whatever stood before it (R36). -/
theorem State.flush_fifoLaw (s : State) : s.flush.fifoLaw := by
  refine (State.fetch_stored _).fifo ⟨?_, fun _ => rfl, Nat.zero_le _⟩
  show 0 + Sched.incoming { s.sched with
    fifo := [], debt := 0, burst := s.sched.burst.map Burst.voided, reader := s.sched.readerAtHead } ≤ 1024
  rw [Burst.voided_incoming { s.sched with fifo := [], debt := 0, reader := s.sched.readerAtHead }]
  decide

theorem State.flush_storeLaw (h : s.storeLaw) : s.flush.storeLaw := by
  refine (State.fetch_stored _).store ?_
  obtain ⟨h1, h2, h3, h4, h5, h6⟩ := h
  refine ⟨h1, h2, h3, h4, h5, fun b hb => ?_⟩
  obtain ⟨x, hx, rfl⟩ := Option.map_eq_some_iff.mp hb
  have := h6 x hx
  cases x <;> exact this

theorem State.flush_stored (s : State) : Stored s s.flush := ⟨State.flush_storeLaw, State.flush_scheduleLaw, fun _ => s.flush_fifoLaw⟩

/-! ### Positions -/

/-- Position (r, 0) of an entry is sound with the index that positioning gives it (R42). -/
theorem HeadPos.sound_at {e : Entry} (he : e.inRanges) {r : Nat} (h1 : 1 ≤ r) (h2 : r ≤ e.repeats) (start : Word) :
    HeadPos.sound { rep := r, offset := 0, start := start } e (indexAt start r e.length) :=
  ⟨⟨h1, h2⟩, he.2.1.1, rfl⟩

/-- The schedule positioned at a repeat of its head and flushed (R41, R49). -/
theorem State.positioned_stored {e : Entry} {rest : List Entry} {p : HeadPos} (hq : s.sched.queue = e :: rest)
    (hp : s.sched.head = some p) {r : Nat} (hr : p.sound e s.sched.next → 1 ≤ r ∧ r ≤ e.repeats) (start : Word) :
    Stored s (State.flush { s with sched := s.sched.position e r start }) := by
  refine ⟨fun h => State.flush_storeLaw h, fun h => State.flush_scheduleLaw ?_, fun _ => State.flush_fifoLaw _⟩
  obtain ⟨h1, h2, h3⟩ := (State.scheduleLaw_head hq hp).mp h
  refine (State.scheduleLaw_head (s := { s with sched := s.sched.position e r start }) hq rfl).mpr ⟨h1, h2, ?_⟩
  exact HeadPos.sound_at (h2 e (by rw [hq]; exact List.mem_cons_self)) (hr h3).1 (hr h3).2 start

theorem State.rewind_stored (s : State) : Stored s s.rewind := by
  unfold State.rewind
  split
  · rename_i e rest p hq hp
    exact State.positioned_stored hq hp (fun h => h.1) _
  · exact s.flush_stored

theorem Stored.of_rewinds (h : Rewinds s t) : Stored s t := by
  induction h with
  | refl => exact .refl s
  | tail _ m ih =>
    cases m with
    | still e => exact ih.then (State.depot_eq_iff.mp e).1
    | hold b => exact ih.trans ⟨id, id, id⟩
    | rewind => exact ih.trans (State.rewind_stored _)

/-! ### Consumption (R43 to R45) -/

/-- The index one further on. -/
theorem word_succ (a : Word) (n : Nat) : a + word n + 1 = a + word (n + 1) := by
  rw [word, word, BitVec.ofNat_add, BitVec.add_assoc]
  rfl

/-- What a consumption leaves of the schedule unit, with a head. -/
theorem Sched.consume_fst {c : Sched} {e : Entry} {rest : List Entry} {p : HeadPos} (hq : c.queue = e :: rest)
    (hp : c.head = some p) : c.consume.1 = Sched.advance { c with
      previous := c.current
      current := some { tag := BitVec.ofNat 16 e.tag, rep := BitVec.ofNat 16 p.rep }
      replay := c.next
      fifo := c.fifo.tail
      debt := if c.fifo.isEmpty then saturate32 c.debt 1 else c.debt } e rest p (c.next + 1) := by
  unfold Sched.consume
  rw [hq, hp]

/-- A consumption changes nothing without a head. -/
theorem Sched.consume_cases (c : Sched) : c.consume.1 = c ∨ ∃ e rest p, c.queue = e :: rest ∧ c.head = some p := by
  unfold Sched.consume
  split
  · rename_i e rest p hq hp
    exact .inr ⟨e, rest, p, hq, hp⟩
  · exact .inl rfl

/-- A position moved on touches queue, head and next index alone (R43, R44). -/
theorem Sched.advance_frame (c : Sched) (e : Entry) (rest : List Entry) (p : HeadPos) (n : Word) : ∃ q h,
    c.advance e rest p n = { c with queue := q, head := h, next := n } := by
  unfold Sched.advance
  split
  · exact ⟨c.queue, _, rfl⟩
  · split
    · exact ⟨c.queue, _, rfl⟩
    · exact ⟨_, _, rfl⟩

/-- The position one sample on is sound (R42, R43, R44). -/
theorem State.advance_scheduleLaw {c : Sched} {e : Entry} {rest : List Entry} {p : HeadPos} (hq : c.queue = e :: rest)
    (hp : c.head = some p) (h : State.scheduleLaw { s with sched := c }) :
    State.scheduleLaw { s with sched := c.advance e rest p (c.next + 1) } := by
  obtain ⟨hlen, hall, ⟨hr1, hr2⟩, ho, hn⟩ := (State.scheduleLaw_head (s := { s with sched := c }) hq hp).mp h
  dsimp only at hlen hall hn
  unfold Sched.advance
  split
  · rename_i hlt
    refine (State.scheduleLaw_head (p := { p with offset := p.offset + 1 }) hq rfl).mpr ⟨hlen, hall, ⟨hr1, hr2⟩, hlt, ?_⟩
    show c.next + 1 = _
    rw [hn, word_succ]
    rfl
  · rename_i hge
    have hend : p.offset + 1 = e.length := by omega
    split
    · rename_i hlt
      refine (State.scheduleLaw_head (p := { p with rep := p.rep + 1, offset := 0 }) hq rfl).mpr
        ⟨hlen, hall, ⟨by dsimp only; omega, hlt⟩, by dsimp only; omega, ?_⟩
      show c.next + 1 = p.start + word ((p.rep + 1 - 1) * e.length + 0)
      rw [hn, word_succ]
      congr 2
      obtain ⟨k, hk⟩ : ∃ k, p.rep = k + 1 := ⟨p.rep - 1, by omega⟩
      rw [hk]
      simp only [Nat.add_sub_cancel]
      rw [Nat.succ_mul, ← hend]
      omega
    · rw [hq, List.length_cons] at hlen
      rw [hq] at hall
      cases rest with
      | nil => exact (State.scheduleLaw_empty rfl).mpr rfl
      | cons x l =>
        have hx := hall x (by simp)
        refine (State.scheduleLaw_head (e := x) (rest := l) (p := { rep := 1, offset := 0, start := c.next + 1 }) rfl rfl).mpr
          ⟨by show (x :: l).length ≤ 64; omega,
          fun y hy => hall y (List.mem_cons_of_mem e hy), ⟨le_rfl, hx.2.2.2.1.1⟩, hx.2.1.1, ?_⟩
        show c.next + 1 = c.next + 1 + word ((1 - 1) * x.length + 0)
        simp [word]

/-- The consumption of a position keeps the laws. -/
theorem State.consumed_stored (s : State) : Stored s { s with sched := s.sched.consume.1 } := by
  rcases s.sched.consume_cases with e | ⟨e, rest, p, hq, hp⟩
  · rw [e]; exact .refl s
  · obtain ⟨q, h, hc⟩ := Sched.advance_frame { s.sched with
      previous := s.sched.current
      current := some { tag := BitVec.ofNat 16 e.tag, rep := BitVec.ofNat 16 p.rep }
      replay := s.sched.next
      fifo := s.sched.fifo.tail
      debt := if s.sched.fifo.isEmpty then saturate32 s.sched.debt 1 else s.sched.debt } e rest p (s.sched.next + 1)
    refine ⟨fun g => ?_, fun g => ?_, fun g => ?_⟩
    · rw [Sched.consume_fst hq hp, hc]; exact g
    · rw [Sched.consume_fst hq hp]
      exact State.advance_scheduleLaw hq hp g
    · rw [Sched.consume_fst hq hp, hc]
      obtain ⟨h1, h2, h3⟩ := g
      show s.sched.fifo.tail.length + s.sched.incoming ≤ 1024 ∧ _ ∧ _
      dsimp only
      cases hf : s.sched.fifo with
      | nil =>
        rw [hf] at h1
        refine ⟨h1, fun _ => rfl, ?_⟩
        simp only [List.isEmpty_nil, if_true, saturate32]
        omega
      | cons x l =>
        rw [hf] at h1 h2
        have hd : ¬ 0 < s.sched.debt := fun h => nomatch h2 h
        rw [List.length_cons] at h1
        exact ⟨by simp; omega, fun h => absurd h hd, h3⟩

end Sys2Proof.Machine

namespace Sys2Proof.Machine

variable (s : State)

theorem Stored.of_depot {s t : State} (h : t.depot = s.depot) : Stored s t := .of_stock (State.depot_eq_iff.mp h).1

/-! ### The ring ports -/

theorem State.post_stock (k : EventKind) (a b : Word) : (s.post k a b).stock = s.stock :=
  (State.depot_eq_iff.mp (s.post_depot k a b)).1

theorem State.emptyQueue_stock (l : Lane) : (s.emptyQueue l).stock = s.stock := by
  have h : ((s.lane l).queue.foldl (fun t q => q.countLost l t) s).stock = s.stock :=
    foldl_keeps State.stock _ (fun t q => by cases q <;> rfl) _ s
  exact Eq.trans rfl h

theorem State.setSide_stock (d : Side) (x : SideState) (c : Nat) : (s.setSide d x c).stock = s.stock := State.post_stock _ _ _ _

theorem State.sideDown_stored (d : Side) (c : Nat) : Stored s (s.sideDown d c) := by
  have h : ((s.setSide d .down c).onSide d (fun x => { x with hold := 500 })).stock = s.stock := s.setSide_stock d .down c
  simp only [State.sideDown]
  refine Stored.after (.of_rewinds (State.isolatedTest_rewinds _)) ?_
  split
  · exact (State.emptyQueue_stock _ _).trans h
  · exact h

theorem State.tryTraining_stock (d : Side) : (s.tryTraining d).stock = s.stock := by
  simp only [State.tryTraining]
  split
  · exact s.setSide_stock d .training 1
  · rfl

theorem State.retrain_stock (d : Side) (c : Nat) : (s.retrain d c).stock = s.stock :=
  (State.emptyQueue_stock _ _).trans (s.setSide_stock d .training c)

theorem State.cleanWord_stock (d : Side) : (s.cleanWord d).stock = s.stock := by
  simp only [State.cleanWord]
  split
  · exact State.setSide_stock (s.onSide d fun x => { x with words := x.words + 1 }) d .up 2
  · rfl

theorem State.takeLaneWord_stock (d : Side) (p f c : Byte) : (s.takeLaneWord d p f c).stock = s.stock := by
  simp only [State.takeLaneWord]
  split
  · rfl
  · split
    · rfl
    · split
      · rfl
      · exact s.cleanWord_stock d
  · split
    · rfl
    · split
      · exact s.retrain_stock d 6
      · split
        · exact s.retrain_stock d 5
        · rfl

theorem State.badFrame_stored (d : Side) : Stored s (s.badFrame d) := by
  simp only [State.badFrame]
  split
  · exact (State.sideDown_stored _ d 4).after rfl
  · exact .of_stock rfl

theorem State.deliver_stock (l : Lane) (f : Frame) (x : Stamp) : (s.deliver l f x).stock = s.stock := by
  unfold State.deliver; split <;> rfl

theorem State.forward_stock (l : Lane) (f : Frame) (x : Stamp) : (s.forward l f x).stock = s.stock := by
  unfold State.forward
  split
  · rfl
  · split <;> rfl

theorem State.ownReturn_stock (l : Lane) (f : Frame) : (s.ownReturn l f).stock = s.stock := by
  simp only [State.ownReturn]
  split
  · rfl
  · exact State.post_stock _ _ _ _

theorem State.goodFrame_stock (l : Lane) (f : Frame) (x : Stamp) : (s.goodFrame l f x).stock = s.stock := by
  simp only [State.goodFrame]
  split
  · exact State.ownReturn_stock _ _ _
  · split
    · exact State.deliver_stock _ _ _ _
    · exact (State.deliver_stock _ _ _ _).trans (State.forward_stock _ _ _ _)

theorem State.takeArrival_stored (l : Lane) (c : Bool) (b : List Byte) : Stored s (s.takeArrival l c b) := by
  simp only [State.takeArrival]
  split
  · exact .of_stock rfl
  · split <;> exact .of_stock rfl
  · split
    · split
      · exact .of_stock (State.goodFrame_stock _ _ _ _)
      · exact (State.badFrame_stored _ _).after rfl
    · exact (State.badFrame_stored _ _).after rfl

theorem State.startTransmission_stock (l : Lane) : (s.startTransmission l).stock = s.stock := by
  unfold State.startTransmission
  split
  · split <;> rfl
  · rfl

theorem State.examineLane_stock (l : Lane) : (s.examineLane l).stock = s.stock := by
  simp only [State.examineLane]
  split
  · rfl
  · split
    · exact State.post_stock _ _ _ _
    · rfl

theorem State.examineLanes_stock : s.examineLanes.stock = s.stock := by
  unfold State.examineLanes
  split
  · exact (State.examineLane_stock _ _).trans (State.examineLane_stock _ _)
  · rfl

theorem State.placeOwn_stock (f : Frame) (l : Lane) : (s.placeOwn f l).stock = s.stock := by
  simp only [State.placeOwn]
  split
  · rfl
  · split <;> rfl

theorem State.buildFrame_stock : s.buildFrame.stock = s.stock := by
  unfold State.buildFrame
  split
  · exact (State.placeOwn_stock _ _ _).trans (State.placeOwn_stock _ _ _)
  · rfl

theorem State.failCheck_stored (d : Side) : Stored s (s.failCheck d) := by
  unfold State.failCheck
  split
  · exact (State.badFrame_stored _ d).after rfl
  · exact .refl s

theorem State.loseSignal_stored (d : Side) : Stored s (s.loseSignal d) := by
  simp only [State.loseSignal]
  split
  · split
    · exact .of_stock rfl
    · exact (State.sideDown_stored _ d 3).after rfl
  · exact .refl s

theorem State.gainSignal_stock (d : Side) : (s.gainSignal d).stock = s.stock := by
  unfold State.gainSignal
  split
  · rfl
  · exact State.tryTraining_stock _ d

theorem State.expireHold_stock (d : Side) : (s.expireHold d).stock = s.stock := by
  unfold State.expireHold
  split
  · exact State.tryTraining_stock _ d
  · rfl

/-! ### Acceptance -/

theorem State.considerAdoption_stock (j : Station) (f : Frame) (x : Stamp) : (s.considerAdoption j f x).1.stock = s.stock := by
  unfold State.considerAdoption
  split
  · exact State.post_stock _ _ _ _
  · rfl

theorem State.takeTiming_stored (j : Station) (f : Frame) (a : Nat) (x : Stamp) : Stored s (s.takeTiming j f a x) := by
  simp only [State.takeTiming]
  split
  · refine Stored.then (.after (.of_rewinds (State.updateStepRun_rewinds _ j _)) ?_) (State.depot_eq_iff.mp (State.takeOffset_depot _ j _)).1
    exact (State.depot_eq_iff.mp (State.recordOffset_depot _ j _)).1.trans (s.considerAdoption_stock j f x)
  · exact .refl s

theorem State.handOver_stored (j : Station) (c : Copy) (b : Bool) : Stored s (s.handOver j c b) :=
  ((Stored.of_rewinds (s.takeFrame_rewinds j c.frame b)).trans (State.takeTiming_stored _ j _ _ _)).trans
    (.of_rewinds ((State.takeOrderPart_rewinds _ _ j).trans (State.takeStopPart_rewinds _ j _)))

theorem State.reportPath_stock (j : Station) (e : FilterEntry) : (s.reportPath j e).stock = s.stock := by
  unfold State.reportPath
  split
  · exact State.post_stock _ _ _ _
  · rfl

theorem State.countGap_stock (d : Nat) : (s.countGap d).stock = s.stock := by
  unfold State.countGap; split <;> rfl

theorem State.judge_stored (j : Station) (c : Copy) : Stored s (s.judge j c) := by
  simp only [State.judge]
  split
  · exact (State.handOver_stored _ j c _).after rfl
  split
  · unfold State.discardEqual
    split <;> exact .of_stock rfl
  split
  · exact (State.handOver_stored _ j c _).after ((State.countGap_stock _ _).trans (s.reportPath_stock j _))
  · unfold State.takeStale
    split
    · exact .of_stock rfl
    · exact (State.handOver_stored _ j c _).after rfl

theorem State.takeWaiting_stored (n : Nat) : Stored s (s.takeWaiting n) := by
  unfold State.takeWaiting
  split
  · exact .refl s
  · unfold State.takeCopy
    split
    · exact .of_stock rfl
    · exact (State.judge_stored _ _ _).after rfl

/-! ### A cycle boundary -/

theorem State.act_stored (a : BoundaryAction) : Stored s (s.act a) := by
  by_cases h : a = .ringClosure
  · subst h; exact .of_stock s.examineLanes_stock
  · by_cases h' : a = .frameBuild
    · subst h'; exact .of_stock s.buildFrame_stock
    · exact .of_rewinds (s.act_rewinds h h')

/-- The pulse count is no part of the laws. -/
theorem State.countPulse_stored : Stored s s.countPulse := by
  obtain ⟨m, n, b, e⟩ := s.countPulse_frame
  rw [e]
  exact ⟨id, id, id⟩

theorem State.boundary_stored (first : List BoundaryAction) : Stored s (s.boundary first) := by
  have h : Stored s s.opened := (State.countPulse_stored _).after (State.depot_eq_iff.mp (State.latchFeedback_depot _)).1
  exact h.trans (.foldl State.act State.act_stored _ _)

/-! ### An output instant -/

theorem State.runMarker_stored (k : Nat) (m : MarkerSlot) (r : PosRecord) : Stored s (s.runMarker k m r) := by
  unfold State.runMarker
  split
  · exact ⟨id, id, id⟩
  · split
    · exact .of_depot (s.originate_depot _ _ _)
    · exact .of_stock (s.post_stock _ _ _)
  · exact .refl s

theorem State.evaluateMarkers_stored (r : PosRecord) : Stored s (s.evaluateMarkers r) := by
  unfold State.evaluateMarkers
  refine .foldl _ (fun t x => ?_) _ s
  split
  · exact (State.runMarker_stored _ _ _ _).after (t.post_stock _ _ _)
  · exact .refl t

/-- The reports of an instant but that of the marker slots leave the depot or rewind. -/
theorem State.report_rewinds (f : InstantFacts) {r : InstantReport} (h : r ≠ .markers) : Rewinds s (s.report f r) := by
  cases r with
  | coupling =>
    simp only [State.report]
    split
    · exact .refl s
    · exact .still (s.post_depot _ _ _)
  | segment =>
    simp only [State.report]
    split
    · exact .refl s
    · split
      · exact .refl s
      · split
        · exact (State.requestLocal_rewinds _ _ _).after (s.post_depot _ _ _)
        · exact .still (s.post_depot _ _ _)
  | underrun =>
    simp only [State.report]
    split
    · exact .refl s
    · split
      · exact s.requestLocal_rewinds _ _
      · exact .refl s
  | markers => exact absurd rfl h
  | late j =>
    simp only [State.report]
    split
    · exact (State.requestLocal_rewinds _ _ _).after rfl
    · exact .refl s

theorem State.report_stored (f : InstantFacts) (r : InstantReport) : Stored s (s.report f r) := by
  by_cases h : r = .markers
  · subst h
    simp only [State.report]
    split
    · exact .refl s
    · split
      · exact s.evaluateMarkers_stored _
      · exact .refl s
  · exact .of_rewinds (s.report_rewinds f h)

/-- The schedule unit takes the consumption in the playing states (R43); store, chunk and ring stand. -/
theorem State.consume_depot : s.consume.1.depot =
    State.depot { s with sched := if s.run.state.playing then s.sched.consume.1 else s.sched } := by
  unfold State.consume
  split
  · dsimp only
    split
    · split <;> rfl
    · rfl
  · rfl

theorem State.instantFacts_depot : s.instantFacts.1.depot = s.consume.1.depot := by
  obtain ⟨v, c, x, e⟩ := s.instantReady.driveInstant_frame s.run.state s.consume.2
    (instantIndex s.consume.2 s.instantReady.sched.replay)
  rw [State.instantFacts_fst, e, State.instantReady]
  cases servesRequest s.consume.1.drive.apply s.run.state s.consume.2 <;> rfl

theorem State.instantFacts_stored : Stored s s.instantFacts.1 := by
  refine Stored.then (t := { s with sched := if s.run.state.playing then s.sched.consume.1 else s.sched }) ?_
    (State.depot_eq_iff.mp (s.instantFacts_depot.trans s.consume_depot)).1
  split
  · exact s.consumed_stored
  · exact .refl s

theorem State.actInstant_stored (first : List InstantReport) : Stored s (s.actInstant first) := by
  have h : Stored s (s.reported first) :=
    s.instantFacts_stored.trans (.foldl _ (fun t r => t.report_stored _ r) _ _)
  rw [State.actInstant_eq]
  split
  · exact h.trans (State.fetch_stored _)
  · exact h

theorem State.takeInstant_stored (first : List InstantReport) : Stored s (s.takeInstant first) :=
  (State.actInstant_stored _ first).after rfl

theorem State.instant_stored (first : List InstantReport) : Stored s (s.instant first) := by
  unfold State.instant
  split
  · exact .refl s
  · exact (State.takeInstant_stored _ first).after rfl

theorem State.endCycle_stored (first : List BoundaryAction) : Stored s (s.endCycle first) :=
  (s.instant_stored []).trans ((State.boundary_stored _ first).after rfl)

/-- The event that falls together with a STOP (R88, R89). -/
theorem State.happens_stored (e : Together) : Stored s (s.happens e) := by
  cases e with
  | boundary first => exact s.endCycle_stored first
  | instant first => exact s.instant_stored first
  | copy n => exact s.takeWaiting_stored n
  | servoReady level => exact .of_rewinds (s.setReady_rewinds level)
  | signalLost d => exact s.loseSignal_stored d
  | frameCheckDown d => exact s.failCheck_stored d

end Sys2Proof.Machine

namespace Sys2Proof.Machine

/-! ### Word memories: where writes fall -/

/-- Every word listed by a memory lies below a bound. -/
def Words.below (n : Nat) (m : Words) : Prop := ∀ c ∈ m, c.1 < n

theorem Words.write_below {m : Words} {n a : Nat} (h : m.below n) (ha : a < n) (v : Half) : (m.write a v).below n := by
  intro c hc
  rcases Words.mem_write hc with hc | ⟨hc, -, -⟩
  · exact h c hc
  · omega

theorem Words.writeAll_below {m : Words} {n a : Nat} {vs : List Half} (h : m.below n) (ha : a + vs.length ≤ n) :
    (m.writeAll a vs).below n := by
  induction vs generalizing m a with
  | nil => exact h
  | cons v vs ih =>
    rw [List.length_cons] at ha
    exact ih (Words.write_below h (by omega) v) (by omega)

/-- A chunk cut off keeps the canonical form (R28). -/
theorem Words.writeCut_wf {m : Words} (h : m.wf) (cut a k : Nat) (vs : List Half) : (m.writeCut cut a k vs).wf := by
  induction vs generalizing m a k with
  | nil => exact h
  | cons v vs ih =>
    refine ih ?_ _ _
    split
    · exact Words.write_wf h a v
    · exact h

theorem Words.writeCut_below {m : Words} {n a : Nat} {vs : List Half} (h : m.below n) (ha : a + vs.length ≤ n) (cut k : Nat) :
    (m.writeCut cut a k vs).below n := by
  induction vs generalizing m a k with
  | nil => exact h
  | cons v vs ih =>
    rw [List.length_cons] at ha
    refine ih ?_ (by omega) _
    split
    · exact Words.write_below h (by omega) v
    · exact h

/-- A chunk within its page ends within the store (R31). -/
theorem Chunk.inPage_write {first : Nat} {ws : List Half} (h : (Chunk.write first ws).inPage) :
    first + ws.length ≤ storeWords := by
  obtain ⟨h1, h2⟩ := h
  unfold storeWords at h1 ⊢
  omega

variable {s t u : State}

/-! ### The store law -/

theorem State.storeLaw_iff : s.storeLaw ↔ s.store.wf ∧ s.store.below storeWords ∧ s.sched.shapes.wf ∧
    s.sched.shapes.below 4096 ∧ (∀ c, s.arb.chunk = some c → c.inPage) ∧ (∀ b, s.sched.burst = some b → b.shapeInRange) :=
  Iff.rfl

/-! ### The completions of bursts (R29, R35) -/

theorem State.afterBurst_stored (s : State) : Stored s s.afterBurst :=
  ((State.fetch_stored s).then rfl).then (State.depot_eq_iff.mp (State.readyTest_depot _)).1

/-- The laws of a state without an outstanding burst. -/
theorem State.storeLaw_withoutBurst (h : s.storeLaw) : State.storeLaw { s with sched := { s.sched with burst := none } } := by
  obtain ⟨h1, h2, h3, h4, h5, -⟩ := h
  exact ⟨h1, h2, h3, h4, h5, nofun⟩

/-- A burst that brings its samples repays the debt and fills the FIFO within its room (R35). -/
theorem State.takeSamples_stored {first n : Nat} (hb : s.sched.burst = some (.sample first n false)) {samples : List Half}
    (hn : samples.length = n) :
    Stored s (State.takeSamples samples { s with sched := { s.sched with burst := none } }) := by
  refine ⟨fun h => State.storeLaw_withoutBurst (s := s) h, id, fun ⟨h1, h2, h3⟩ => ?_⟩
  have hi : s.sched.incoming = n := by unfold Sched.incoming; rw [hb]
  rw [hi] at h1
  show (s.sched.fifo ++ samples.drop (min s.sched.debt samples.length)).length + 0 ≤ 1024 ∧
    (0 < s.sched.debt - min s.sched.debt samples.length →
      s.sched.fifo ++ samples.drop (min s.sched.debt samples.length) = []) ∧
    s.sched.debt - min s.sched.debt samples.length ≤ 4294967295
  refine ⟨by rw [List.length_append, List.length_drop]; omega, fun hd => ?_, by omega⟩
  rw [h2 (by omega), List.nil_append, List.drop_eq_nil_iff]
  omega

theorem State.sampleCompletion_stored (s : State) : Stored s s.sampleCompletion := by
  unfold State.sampleCompletion
  split
  · rename_i first n void _ hb
    unfold State.completeSamples
    cases void with
    | true =>
      exact Stored.trans ⟨State.storeLaw_withoutBurst, id, fun ⟨h1, h2⟩ => ⟨Nat.le_trans (Nat.le_add_right _ _) h1, h2⟩⟩
        (State.afterBurst_stored { s with sched := { s.sched with burst := none } })
    | false => exact (State.takeSamples_stored hb (Words.readAll_length _ _ _)).trans (State.afterBurst_stored _)
  · exact .refl s

/-- A burst that brings no samples can stand in place of any other (R33). -/
theorem State.fifoLaw_of_burst {b : Option Burst} (hb : ∀ c : Sched, Sched.incoming { c with burst := b } = 0) (h : s.fifoLaw)
    {x : Words} {n : Nat} {l : Bool} :
    State.fifoLaw { s with sched := { s.sched with burst := b, shapes := x, shapeCount := n, loaded := l } } := by
  obtain ⟨h1, h2, h3⟩ := h
  refine ⟨?_, h2, h3⟩
  have := hb { s.sched with shapes := x, shapeCount := n, loaded := l }
  dsimp only at this ⊢
  omega

theorem State.shapeCompletion_stored (s : State) : Stored s s.shapeCompletion := by
  unfold State.shapeCompletion
  split
  · rename_i k _ hb
    have hx : s.storeLaw → k < 16 ∧ (s.sched.shapes.writeAll (k * 256) (s.store.readAll (shapeStart k) 256)).wf ∧
        (s.sched.shapes.writeAll (k * 256) (s.store.readAll (shapeStart k) 256)).below 4096 := by
      rintro ⟨-, -, h3, h4, -, h6⟩
      have hk : k < 16 := h6 _ hb
      exact ⟨hk, Words.writeAll_wf h3 _ _, Words.writeAll_below h4 (by rw [Words.readAll_length]; omega)⟩
    unfold State.completeShape
    generalize s.sched.shapes.writeAll (k * 256) (s.store.readAll (shapeStart k) 256) = m at hx
    have hlaw : ∀ (b : Option Burst) (l : Bool), (∀ c : Sched, Sched.incoming { c with burst := b } = 0) →
        (k < 16 → ∀ y, b = some y → y.shapeInRange) → Stored s { s with sched := { s.sched with
          burst := b, shapes := m, shapeCount := s.sched.shapeCount + 1, loaded := l } } := fun b l hi hy =>
      ⟨fun h => ⟨h.1, h.2.1, (hx h).2.1, (hx h).2.2, h.2.2.2.2.1, hy (hx h).1⟩, id, fun h => State.fifoLaw_of_burst hi h⟩
    dsimp only
    split
    · rename_i hlt
      refine (hlaw (some (.shape (k + 1))) (decide (15 ≤ k)) (fun _ => rfl) ?_).trans ((State.afterBurst_stored _).after rfl)
      rintro - y ⟨⟩
      show k + 1 < 16
      omega
    · exact (hlaw none _ (fun _ => rfl) fun _ => nofun).trans (State.afterBurst_stored _)
  · exact .refl s

/-! ### The transfers (R31) -/

theorem State.chunkUnderWay_some {first : Nat} {ws : List Half} (h : s.chunkUnderWay = some (first, ws)) :
    s.arb.serving = some .supervisor ∧ s.arb.chunk = some (.write first ws) := by
  unfold State.chunkUnderWay at h
  split at h
  · rename_i h1 h2
    cases h
    exact ⟨h1, h2⟩
  · cases h

theorem State.requestChunk_stored {c : Chunk} (hc : c.inPage) (s : State) : Stored s (s.requestChunk c) :=
  ⟨fun ⟨h1, h2, h3, h4, _, h6⟩ => ⟨h1, h2, h3, h4, by rintro x ⟨⟩; exact hc, h6⟩, id, id⟩

theorem State.finishChunk_stored (results : List Word) (s : State) : Stored s (s.finishChunk results) :=
  ⟨fun ⟨h1, h2, h3, h4, _, h6⟩ => ⟨h1, h2, h3, h4, nofun, h6⟩, id, id⟩

theorem State.storeChunk_stored {first : Nat} {ws : List Half} (h : s.arb.chunk = some (.write first ws)) :
    Stored s (s.storeChunk first ws) := by
  refine ⟨fun ⟨h1, h2, h3, h4, h5, h6⟩ => ?_, id, id⟩
  have hp : (Chunk.write first ws).inPage := h5 _ h
  refine ⟨Words.writeAll_wf h1 _ _, Words.writeAll_below h2 (Chunk.inPage_write hp), ?_, ?_, h5, h6⟩
  · show Words.wf (if _ then _ else _)
    split
    · exact Words.writeAll_wf h3 _ _
    · exact h3
  · show Words.below 4096 (if _ then _ else _)
    split
    · rename_i hpage
      obtain ⟨hp1, hp2⟩ := hp
      exact Words.writeAll_below h4 (by omega)
    · exact h4

theorem State.writeCompletion_stored (s : State) : Stored s s.writeCompletion := by
  unfold State.writeCompletion
  split
  · rename_i first ws h
    exact (State.storeChunk_stored (State.chunkUnderWay_some h).2).trans (State.finishChunk_stored _ _)
  · exact .refl s

theorem State.readCompletion_stored (s : State) : Stored s s.readCompletion := by
  unfold State.readCompletion
  split
  · exact State.finishChunk_stored _ s
  · exact .refl s

theorem unpackSamples_length_le (n : Nat) (ws : List Word) : (unpackSamples n ws).length ≤ n := by
  fun_induction unpackSamples n ws with
  | case1 => exact Nat.le_refl 0
  | case2 => exact Nat.zero_le _
  | case3 => exact Nat.le_refl 1
  | case4 n w ws ih => simp only [List.length_cons]; omega

/-- A transfer that passes its range tests lies within its page (R31). -/
theorem transferTests_page {args : List Word} (h : ∀ b ∈ transferTests args, b = true) :
    transferStart args < storeWords ∧ transferStart args % 4096 + (argAt args 2).toNat ≤ 4096 := by
  simp [transferTests, inRange] at h
  obtain ⟨h1, h2, -, h3⟩ := h
  unfold transferStart storeWords
  omega

end Sys2Proof.Machine

namespace Sys2Proof.Machine

/-! ### The supervisor port -/

theorem State.finish_stored (x : Status) (w : List Word) (s : State) : Stored s (s.finish x w) := .of_stock rfl

theorem State.takeCommand_stored (code : Nat) (tag : Byte) (args : List Word) {owner : State → State}
    (h : ∀ u, Stored u (owner u)) (s : State) : Stored s (s.takeCommand code tag args owner) := by
  unfold State.takeCommand
  dsimp only
  split
  · exact .of_stock rfl
  · exact (h _).after rfl

theorem withCount_stored (n : Nat) (args : List Word) {owner : State → State} (h : ∀ u, Stored u (owner u)) (s : State) :
    Stored s (withCount n args owner s) := by
  unfold withCount
  split
  · exact h s
  · exact s.finish_stored _ _

theorem inStates_stored (l : List RunState) {owner : State → State} (h : ∀ u, Stored u (owner u)) (s : State) :
    Stored s (inStates l owner s) := by
  unfold inStates
  split
  · exact h s
  · exact s.finish_stored _ _

theorem withRanges_stored (tests : List Bool) {owner : State → State}
    (h : (∀ b ∈ tests, b = true) → ∀ u, Stored u (owner u)) (s : State) : Stored s (withRanges tests owner s) := by
  unfold withRanges
  split
  · exact s.finish_stored _ _
  · exact h (firstOffence_none ‹_›) s

/-- The READY test and the final reply behind a schedule command (R74, R198). -/
theorem Stored.tested {s t : State} (h : Stored s t) (x : Status) (w : List Word) : Stored s (t.readyTest.finish x w) :=
  h.then (State.depot_eq_iff.mp t.readyTest_depot).1

/-! ### Schedule commands (R38 to R41) -/

/-- A segment that passes its tests is an entry in range (R38, R39). -/
theorem segmentOf_inRanges {args : List Word} (h : segmentOffence args = none) : (segmentOf args).inRanges := by
  unfold segmentOffence at h
  dsimp only at h
  split at h
  · cases h
  · rename_i hf
    have ht := firstOffence_none hf
    simp [inRange] at ht
    split at h
    · cases h
    · split at h
      · cases h
      · unfold Entry.inRanges segmentOf
        dsimp only
        omega

/-- The index of position (1, 0) is the head start index (R42). -/
theorem indexAt_one (start : Word) (n : Nat) : indexAt start 1 n = start := by simp [indexAt, word]

/-- A queue with an entry has a head (R42). -/
theorem State.scheduleLaw.head_isSome {s : State} {e : Entry} {rest : List Entry} (h : s.scheduleLaw)
    (hq : s.sched.queue = e :: rest) : ∃ p, s.sched.head = some p := by
  unfold State.scheduleLaw at h
  rw [hq] at h
  cases hp : s.sched.head with
  | none => rw [hp] at h; exact h.2.2.elim
  | some p => exact ⟨p, rfl⟩

/-- An entry in range placed behind fewer than 64 (R39). -/
theorem State.append_stored {e : Entry} (he : e.inRanges) {s : State} (hq : s.sched.queue.length < 64) :
    Stored s (s.append e) := by
  unfold State.append
  dsimp only
  refine Stored.trans ⟨fun h => ?_, fun h => ?_, fun h => ?_⟩ (State.fetch_stored _)
  · split <;> exact h
  · split
    · rename_i hem
      have hnil : s.sched.queue = [] := List.isEmpty_iff.mp hem
      refine (State.scheduleLaw_head (e := e) (rest := []) (p := { rep := 1, offset := 0, start := s.sched.next })
        (congrArg (· ++ [e]) hnil) rfl).mpr ⟨?_, ?_, HeadPos.sound_at he le_rfl he.2.2.2.1.1 _⟩
      · show (s.sched.queue ++ [e]).length ≤ 64
        rw [List.length_append, List.length_singleton]; omega
      · show ∀ x ∈ s.sched.queue ++ [e], x.inRanges
        rw [hnil]
        exact fun x hx => List.mem_singleton.mp hx ▸ he
    · rename_i hne
      obtain ⟨x, l, hs⟩ := List.exists_cons_of_ne_nil (fun e => hne (by rw [e]; rfl) : s.sched.queue ≠ [])
      obtain ⟨p, hp⟩ := h.head_isSome hs
      obtain ⟨-, h2, h3⟩ := (State.scheduleLaw_head hs hp).mp h
      refine (State.scheduleLaw_head (e := x) (rest := l ++ [e]) (p := p) (congrArg (· ++ [e]) hs) (by exact hp)).mpr ⟨?_, ?_, h3⟩
      · show (s.sched.queue ++ [e]).length ≤ 64
        rw [List.length_append, List.length_singleton]; omega
      · intro y hy
        rcases List.mem_append.mp (show y ∈ s.sched.queue ++ [e] from hy) with hy | hy
        · exact h2 y hy
        · exact List.mem_singleton.mp hy ▸ he
  · split <;> exact h

theorem State.appendSegment_stored (args : List Word) (s : State) : Stored s (s.appendSegment args) := by
  unfold State.appendSegment
  split
  · exact s.finish_stored _ _
  · split
    · exact s.finish_stored _ _
    · rename_i h
      split
      · exact s.finish_stored _ _
      · exact (State.append_stored (segmentOf_inRanges h) (by omega)).tested _ _

theorem State.discardSchedule_stored (s : State) : Stored s s.discardSchedule := by
  refine Stored.tested (s := s) (t := s.discardQueue) ⟨fun h => State.flush_storeLaw h, fun _ => State.flush_scheduleLaw ?_, fun _ => State.flush_fifoLaw _⟩ _ _
  exact (State.scheduleLaw_empty rfl).mpr rfl

theorem State.seekRepeat_stored (args : List Word) (s : State) : Stored s (s.seekRepeat args) := by
  unfold State.seekRepeat
  split
  · rename_i e rest p hq hp
    split
    · rename_i hr
      exact (State.positioned_stored hq hp (fun _ => by simpa [inRange] using hr) _).tested _ _
    · exact s.finish_stored _ _
  · exact s.finish_stored _ _

/-! ### Transfers, coupling, orders -/

theorem State.writePage_stored (args : List Word) (s : State) : Stored s (s.writePage args) := by
  unfold State.writePage
  split
  · exact s.finish_stored _ _
  · refine withRanges_stored _ (fun h => State.requestChunk_stored ?_) s
    obtain ⟨h1, h2⟩ := transferTests_page h
    have := unpackSamples_length_le (argAt args 2).toNat (args.drop 3)
    exact ⟨h1, by omega⟩

theorem State.readPage_stored (args : List Word) (s : State) : Stored s (s.readPage args) :=
  withRanges_stored _ (fun h => State.requestChunk_stored (c := .read _ _) (transferTests_page h)) s

theorem State.writeConfig_stock (args : List Word) (s : State) : (s.writeConfig args).stock = s.stock := by
  unfold State.writeConfig
  split
  · rfl
  · split
    · rfl
    · split <;> rfl

theorem State.writeCoupling_stock (args : List Word) (s : State) : (s.writeCoupling args).stock = s.stock := by
  unfold State.writeCoupling
  split
  · rfl
  · split
    · rfl
    · split <;> rfl

theorem State.applyCoupling_stock (args : List Word) (s : State) : (s.applyCoupling args).stock = s.stock := by
  unfold State.applyCoupling; split <;> rfl

theorem orderOwner_stored (n : Nat) (args : List Word) (l : List RunState) (k : OrderKind) (b : Nat) (s : State) :
    Stored s (orderOwner n args l k b s) := by
  refine withCount_stored n args (inStates_stored l (withRanges_stored _ fun _ u => ?_)) s
  unfold State.commandOrder
  split
  · exact .of_stock (State.depot_eq_iff.mp (u.originate_depot k _ b)).1
  · exact u.finish_stored _ _

theorem State.readEvent_stock (s : State) : s.readEvent.stock = s.stock := by
  unfold State.readEvent; split <;> rfl

theorem State.readTable_stock (n k : Nat) (s : State) : (s.readTable n k).stock = s.stock := by
  have ht : ∀ (m : Nat) (f : Station → List Word), (s.stationTable m f).stock = s.stock := fun m f => by
    unfold State.stationTable; split <;> rfl
  have ha : ∀ x : Option (List Word), (s.answerRecord x).stock = s.stock := fun x => by
    unfold State.answerRecord; split <;> rfl
  unfold State.readTable
  split
  case h_1 | h_2 | h_3 | h_5 => exact ht _ _
  case h_4 | h_6 =>
    split
    · exact ha _
    · rfl
  case h_7 => split <;> rfl
  case h_8 => rfl

theorem State.malformedCommand_stock (x : Bool) (b : List Byte) (s : State) : (s.malformedCommand x b).stock = s.stock := by
  unfold State.malformedCommand; split <;> rfl

theorem State.stopCommand_stored (e : Option Together) (s : State) : Stored s (s.stopCommand e) := by
  have h : ∀ t : State, Stored t ((t.requestLocal .operator t.ownNumber).finish .ok []) := fun t =>
    (Stored.of_rewinds (t.requestLocal_rewinds _ _)).then rfl
  cases e with
  | none => exact h s
  | some e => exact (s.happens_stored e).trans (h _)

theorem State.leaveStop_depot (s : State) : s.leaveStop.depot = s.depot := by
  unfold State.leaveStop
  split
  · exact s.enterStandby_depot
  · exact s.changeState_depot _

/-- CLEAR touches the stock where a tripped node lets its reader go on (R34, R96). -/
theorem State.clearCommand_stored (s : State) : Stored s s.clearCommand := by
  have hl : ∀ t : State, Stored t (t.clearEpisode.leaveStop.finish .ok []) := fun t =>
    .of_stock (State.depot_eq_iff.mp (State.leaveStop_depot t.clearEpisode)).1
  unfold State.clearCommand
  split
  · exact hl s
  · unfold State.clearTripped
    split
    · exact Stored.trans (t := s.release.setHold false) ⟨id, id, id⟩ ((State.fetch_stored _).trans (hl _))
    · exact s.finish_stored _ _
  · exact s.finish_stored _ _

theorem State.clearOwnCoefficients_stock (s : State) : s.clearOwnCoefficients.stock = s.stock := by
  unfold State.clearOwnCoefficients; split <;> rfl

theorem State.presented_stock (s : State) : s.presented.stock = s.stock := rfl

theorem State.takeRate_stock (s : State) : s.takeRate.stock = s.stock := rfl

theorem State.takeRoster_stock (s : State) : s.takeRoster.stock = s.stock := by
  obtain ⟨v, h, -⟩ := s.takeRoster_get
  rw [h]
  rfl

theorem State.requestFirstShape_stored (s : State) : Stored s (s.requestBurst (.shape 0)) :=
  ⟨State.storeLaw_of_burst (by rintro x ⟨⟩; exact Nat.zero_lt_succ 15), id, fun ⟨h1, h2⟩ => ⟨Nat.le_trans (Nat.le_add_right _ _) h1, h2⟩⟩

/-- GO ONLINE requests the first shape (R29) and leaves the rest of the stock. -/
theorem State.tryOnline_stored (s : State) : Stored s s.tryOnline := by
  unfold State.tryOnline
  split
  · exact s.finish_stored _ _
  · rw [State.goOnline_eq]
    have h : (s.changeState .assembly).presented.clearOwnCoefficients.takeRate.takeRoster.stock = s.stock :=
      (State.takeRoster_stock _).trans ((State.takeRate_stock _).trans ((State.clearOwnCoefficients_stock _).trans
        ((State.presented_stock _).trans (State.depot_eq_iff.mp (s.changeState_depot .assembly)).1)))
    exact ((State.requestFirstShape_stored _).after h).trans (State.finish_stored _ _ _)

/-! ### A whole step -/

/-- A reset brings the laws of the schedule with it, and leaves a store in its form and range (R68, R209). -/
theorem State.resetBlocks_stored (c : Condition) {s u : State}
    (h : s.storeLaw → u.store.wf ∧ u.store.below storeWords) : Stored s (u.resetBlocks c) :=
  ⟨fun g => ⟨(h g).1, (h g).2, State.reset_storeLaw.2.2⟩, fun _ => State.reset_scheduleLaw,
    fun _ => ⟨Nat.zero_le _, nofun, Nat.zero_le _⟩⟩

/-- The store that a power-on reset leaves, a cut chunk in it, keeps form and range (R28). -/
theorem State.cutStore_sound {s : State} (h : s.storeLaw) : s.cutStore.store.wf ∧ s.cutStore.store.below storeWords := by
  unfold State.cutStore
  split
  · rename_i first ws hc
    obtain ⟨h1, h2, -, -, h5, -⟩ := h
    exact ⟨Words.writeCut_wf h1 _ _ _ _, Words.writeCut_below h2 (Chunk.inPage_write (h5 _ (State.chunkUnderWay_some hc).2)) _ _⟩
  · exact ⟨h.1, h.2.1⟩

theorem State.settle_stock (s : State) : s.settle.stock = s.stock := rfl

theorem State.whileRunning_stored {f : State → State} (h : ∀ u, Stored u (f u)) (s : State) : Stored s (s.whileRunning f) := by
  unfold State.whileRunning
  split
  · exact ((h s.settle).after s.settle_stock).then (State.settle_stock _)
  · exact .refl s

theorem State.bringing_stored (x : Happening) {f : State → State} (h : ∀ u, Stored u (f u)) (u : State) :
    Stored u (u.bringing x f) := by
  unfold State.bringing
  split
  · exact h u
  · exact .refl u

/-- A step whose act leaves the stock. -/
theorem State.whileRunning_stock {f : State → State} (h : ∀ u, (f u).stock = u.stock) (s : State) : Stored s (s.whileRunning f) :=
  s.whileRunning_stored fun u => .of_stock (h u)

theorem State.command_stored (code : Nat) (tag : Byte) (args : List Word) {owner : State → State} (h : ∀ u, Stored u (owner u))
    (s : State) : Stored s (s.command code tag args owner) :=
  State.whileRunning_stored (State.takeCommand_stored code tag args h) s

/-- A command with its number of arguments (R202). -/
theorem State.counted_stored (code n : Nat) (tag : Byte) (args : List Word) {owner : State → State} (h : ∀ u, Stored u (owner u))
    (s : State) : Stored s (s.command code tag args (withCount n args owner)) :=
  s.command_stored code tag args (withCount_stored n args h)

theorem State.clockEdge_stored (s : State) : Stored s s.clockEdge := by
  have hc : ∀ u : State, Stored u u.advanceClock := fun u => by
    unfold State.advanceClock
    split
    · exact u.boundary_stored []
    · dsimp only
      split
      · exact (State.takeInstant_stored _ _).after rfl
      · exact .of_stock rfl
  have he : ∀ (b : State) (d : Side) (u : State), (State.expireIfLast b d u).stock = u.stock := fun b d u => by
    unfold State.expireIfLast
    split
    · exact u.expireHold_stock d
    · rfl
  unfold State.clockEdge
  split
  · exact .refl s
  · exact .refl s
  · split <;> exact .of_stock rfl
  · refine s.whileRunning_stored fun u => ?_
    unfold State.runEdge
    split
    · exact State.resetBlocks_stored _ fun h => ⟨h.1, h.2.1⟩
    · exact (hc u).then ((he _ _ _).trans (he _ _ _))

/-- Every command keeps the laws of store and schedule. -/
theorem exec_stored {t : State} (c : Instr) (s : State) (h : exec c s = .next t) : Stored s t := by
  have hr : ∀ {a : State}, Host.Outcome.next (φ := Fault) (ρ := Refusal) a = .next t → Stored s a → Stored s t := by
    rintro a h g; cases h; exact g
  have hcycle : ∀ x first, Stored s (s.whileRunning (State.bringing x (State.endCycle first))) := fun x first =>
    s.whileRunning_stored (State.bringing_stored x fun u => u.endCycle_stored first)
  have hcopy : ∀ x n, Stored s (s.whileRunning (State.bringing x (State.takeWaiting n))) := fun x n =>
    s.whileRunning_stored (State.bringing_stored x fun u => u.takeWaiting_stored n)
  cases c with
  | powerOnReset => exact hr h (State.resetBlocks_stored _ State.cutStore_sound)
  | resetRelease =>
    refine hr h ?_
    split <;> exact .of_stock rfl
  | resetNodeTakesEffect =>
    refine hr h ?_
    split
    · exact State.resetBlocks_stored _ fun h => ⟨h.1, h.2.1⟩
    · exact .refl s
  | resetNodeEnd =>
    refine hr h ?_
    split <;> exact .of_stock rfl
  | cycleBoundary first => exact hr h (s.whileRunning_stored fun u => u.endCycle_stored first)
  | outputInstant first => exact hr h (s.whileRunning_stored fun u => u.instant_stored first)
  | feedbackWord straddles bits =>
    refine hr h ?_
    split
    · exact .refl s
    · refine s.whileRunning_stock fun u => ?_
      simp only [State.receiveWord]
      split <;> rfl
  | servoReady level => exact hr h (s.whileRunning_stored fun u => .of_rewinds (u.setReady_rewinds level))
  | signalPresent d => exact hr h (s.whileRunning_stock fun u => u.gainSignal_stock d)
  | signalLost d => exact hr h (s.whileRunning_stored fun u => u.loseSignal_stored d)
  | downHoldExpiry d => exact hr h (s.whileRunning_stock fun u => u.expireHold_stock d)
  | laneWord d p f c => exact hr h (s.whileRunning_stock fun u => u.takeLaneWord_stock d p f c)
  | sideTrained d =>
    refine hr h (s.whileRunning_stock fun u => ?_)
    split
    · exact u.cleanWord_stock d
    · rfl
  | frameArrival l c b => exact hr h (s.whileRunning_stored fun u => u.takeArrival_stored l c b)
  | frameCheckDown d => exact hr h (s.whileRunning_stored fun u => u.failCheck_stored d)
  | transmitStart l n => exact hr h (s.whileRunning_stock fun u => State.startTransmission_stock (u.elapseWithin n) l)
  | deliveryCopyTaken n => exact hr h (s.whileRunning_stored fun u => u.takeWaiting_stored n)
  | resynchronisation n => exact hr h (hcopy _ n)
  | pathDegraded n => exact hr h (hcopy _ n)
  | stepLoss n => exact hr h (hcopy _ n)
  | feedbackLoss first => exact hr h (hcycle _ first)
  | rampEndReport first => exact hr h (hcycle _ first)
  | assemblyComplete first => exact hr h (hcycle _ first)
  | peerSilent first j => exact hr h (hcycle _ first)
  | ringOpen first l => exact hr h (hcycle _ first)
  | markerPulseEnd first => exact hr h (hcycle _ first)
  | peerLate first j => exact hr h (s.whileRunning_stored (State.bringing_stored _ fun u => u.instant_stored first))
  | sampleBurstCompletion => exact hr h (s.whileRunning_stored State.sampleCompletion_stored)
  | shapeLoadBurstCompletion => exact hr h (s.whileRunning_stored State.shapeCompletion_stored)
  | writeChunkCompletion => exact hr h (s.whileRunning_stored State.writeCompletion_stored)
  | readChunkCompletion => exact hr h (s.whileRunning_stored State.readCompletion_stored)
  | malformedTransaction x b => exact hr h (s.whileRunning_stock (State.malformedCommand_stock x b))
  | readReply n => exact hr h (s.whileRunning_stock (f := State.readReply n) fun _ => rfl)
  | getStatus tag args => exact hr h (s.counted_stored _ 0 tag args fun u => u.finish_stored _ _)
  | writeConfig tag args => exact hr h (s.command_stored _ tag args fun u => .of_stock (u.writeConfig_stock args))
  | goOnline tag args => exact hr h (s.counted_stored _ 0 tag args (inStates_stored _ State.tryOnline_stored))
  | writePage tag args => exact hr h (s.command_stored _ tag args (State.writePage_stored args))
  | readPage tag args => exact hr h (s.counted_stored _ 3 tag args (State.readPage_stored args))
  | appendSegment tag args => exact hr h (s.counted_stored _ 8 tag args (State.appendSegment_stored args))
  | discardSchedule tag args => exact hr h (s.counted_stored _ 0 tag args (inStates_stored _ State.discardSchedule_stored))
  | seekRepeat tag args => exact hr h (s.counted_stored _ 1 tag args (inStates_stored _ (State.seekRepeat_stored args)))
  | writeCoupling tag args => exact hr h (s.counted_stored _ 2 tag args fun u => .of_stock (u.writeCoupling_stock args))
  | applyCoupling tag args => exact hr h (s.counted_stored _ 1 tag args fun u => .of_stock (u.applyCoupling_stock args))
  | start tag args => exact hr h (s.command_stored _ tag args (orderOwner_stored 2 args _ .start _))
  | pause tag args => exact hr h (s.command_stored _ tag args (orderOwner_stored 1 args _ .pause _))
  | resume tag args => exact hr h (s.command_stored _ tag args (orderOwner_stored 1 args _ .resume _))
  | setLevel tag args => exact hr h (s.command_stored _ tag args (orderOwner_stored 2 args _ .level _))
  | stop tag arrival =>
    exact hr h (s.counted_stored _ 0 tag arrival.words (inStates_stored _ (State.stopCommand_stored arrival.ahead)))
  | clear tag args => exact hr h (s.counted_stored _ 0 tag args State.clearCommand_stored)
  | readEvent tag args => exact hr h (s.counted_stored _ 0 tag args fun u => .of_stock u.readEvent_stock)
  | readTable tag args => exact hr h (s.counted_stored _ 2 tag args fun u => .of_stock (u.readTable_stock _ _))
  | clearCounters tag args => exact hr h (s.counted_stored _ 0 tag args (owner := State.clearCounters) fun _ => .of_stock rfl)
  | resetNode tag args => exact hr h (s.counted_stored _ 0 tag args (owner := State.resetNode) fun _ => .of_stock rfl)
  | arrivalStamp l n => exact hr h (s.whileRunning_stock (f := State.stampArrival l n) fun _ => rfl)
  | transmissionEnd l => exact hr h (s.whileRunning_stock fun u => (rfl : (u.onLane l _).stock = u.stock))
  | powerLoss => exact hr h (.of_stock rfl)

/-- Every step keeps the laws of store and schedule. -/
theorem step_stored {s t : State} (h : step s = .next t) : Stored s t := by
  unfold step at h
  split at h
  · cases h; exact s.clockEdge_stored
  · exact (exec_stored _ _ h).after rfl

/-- Settles O56: stops rewind and leave the words; bursts and chunks write within their shape and their page. -/
theorem stepKeepsStoreLaw : Obligations.StepKeepsStoreLaw := fun _ _ hs h => (step_stored h).store hs

/-- Settles O57: every position that a step leaves is sound, and a burst is requested only where the FIFO has room for it. -/
theorem stepKeepsScheduleLaws : Obligations.StepKeepsScheduleLaws := fun _ _ h => ⟨(step_stored h).schedule, (step_stored h).fifo⟩

end Sys2Proof.Machine

namespace Sys2Proof.Machine

variable {s : State}

/-! ### A write chunk cut off by a power-on reset (R28, R68) -/

/-- Each word of a cut chunk reads as before or as the chunk would have it, every other word as before (R28). -/
theorem Words.read_writeCut {m : Words} (h : m.wf) (cut a k : Nat) (vs : List Half) (b : Nat) :
    (m.writeCut cut a k vs).read b = m.read b ∨
      (a ≤ b ∧ b < a + vs.length ∧ (m.writeCut cut a k vs).read b = vs.getD (b - a) 0) := by
  induction vs generalizing m a k with
  | nil => exact .inl rfl
  | cons v vs ih =>
    have hw : (if Config.cutWordIsNew cut k then m.write a v else m).wf := by
      split
      · exact Words.write_wf h a v
      · exact h
    have hr : (if Config.cutWordIsNew cut k then m.write a v else m).read b = m.read b ∨
        (b = a ∧ (if Config.cutWordIsNew cut k then m.write a v else m).read b = v) := by
      split
      · rcases eq_or_ne b a with rfl | hne
        · exact .inr ⟨rfl, Words.read_write_same h b v⟩
        · exact .inl (Words.read_write_other m v hne)
      · exact .inl rfl
    show (Words.writeCut cut _ (a + 1) (k + 1) vs).read b = _ ∨ (_ ∧ _ ∧ (Words.writeCut cut _ (a + 1) (k + 1) vs).read b = _)
    rw [List.length_cons]
    rcases ih hw (a + 1) (k + 1) with e | ⟨h1, h2, e⟩
    · rcases hr with h0 | ⟨rfl, h0⟩
      · exact .inl (e.trans h0)
      · exact .inr ⟨le_rfl, by omega, by rw [e, h0, Nat.sub_self]; rfl⟩
    · refine .inr ⟨by omega, by omega, ?_⟩
      rw [e, show b - a = (b - (a + 1)) + 1 by omega, List.getD_cons_succ]

theorem State.chunkUnderWay_eq {first : Nat} {ws : List Half} :
    s.chunkUnderWay = some (first, ws) ↔ s.arb.serving = some .supervisor ∧ s.arb.chunk = some (.write first ws) := by
  refine ⟨State.chunkUnderWay_some, fun ⟨h1, h2⟩ => ?_⟩
  unfold State.chunkUnderWay
  rw [h1, h2]

theorem State.cutStore_some {first : Nat} {ws : List Half} (h : s.chunkUnderWay = some (first, ws)) :
    s.cutStore = { s with store := s.store.writeCut s.cuts first 0 ws, cuts := s.cuts + 1 } := by
  unfold State.cutStore
  rw [h]

theorem State.cutStore_none (h : s.chunkUnderWay = none) : s.cutStore = s := by
  unfold State.cutStore
  rw [h]

theorem State.cutStore_pending (s : State) : s.cutStore.pending = s.pending := by
  unfold State.cutStore
  split <;> rfl

theorem State.cutStore_wf (h : s.store.wf) : s.cutStore.store.wf := by
  unfold State.cutStore
  split
  · exact Words.writeCut_wf h _ _ _ _
  · exact h

/-- Settles O3: the reset keeps the store of `cutStore`, whose words differ within a cut chunk alone. -/
theorem powerOnResetKeepsOnlyTheStore : Obligations.PowerOnResetKeepsOnlyTheStore := by
  intro s hw
  refine ⟨s.cutStore.store, s.cutStore.cuts, _, rfl, ?_, rfl, State.cutStore_wf hw, fun hn => ?_, fun first ws h1 h2 a => ?_⟩
  · rw [← State.cutStore_pending s]
    rfl
  · cases hc : s.chunkUnderWay with
    | none => rw [State.cutStore_none hc]
    | some c => exact absurd (State.chunkUnderWay_eq.mp hc) (hn c.1 c.2)
  · rw [State.cutStore_some (State.chunkUnderWay_eq.mpr ⟨h1, h2⟩)]
    exact Words.read_writeCut hw s.cuts first 0 ws a

end Sys2Proof.Machine

namespace Sys2Proof.Machine

variable {s : State}

/-! ### After a burst: the reader, the port and the READY test (R30, R34, R74) -/

theorem State.readyTest_counter (s : State) {c : Counter} (h : c.place ≠ Counter.eventOverflow.place) :
    s.readyTest.counter c = s.counter c := by
  rcases s.readyTest_cases with e | ⟨-, e⟩ | ⟨-, r, -, e⟩ <;> rw [e]
  · exact s.post_counter _ _ _ h
  · exact s.post_counter _ _ _ h

theorem State.readyTest_arb (s : State) : s.readyTest.arb = s.arb := by
  rcases s.readyTest_cases with e | ⟨-, e⟩ | ⟨-, r, -, e⟩ <;> rw [e]
  · exact s.changeState_arb _
  · exact s.changeState_arb _

theorem State.readyTest_reply (s : State) : s.readyTest.port.reply = s.port.reply :=
  (s.readyTest_moves (A := noOrder)).keeps_reply

/-- The reader requests nothing while a burst is outstanding (R34). -/
theorem State.fetch_outstanding (h : s.sched.burst.isSome) : s.fetch = s := by
  have hn : s.sched.burst.isNone = false := by rw [Option.isNone_eq_false_iff]; exact h
  unfold State.fetch
  split
  · rfl
  · simp [hn]

/-- What comes after a burst touches, of the schedule unit, the outstanding burst alone (R34, R36). -/
theorem State.afterBurst_frame (s : State) : (∃ b, s.afterBurst.sched = { s.sched with burst := b }) ∧
    s.afterBurst.store = s.store ∧ s.afterBurst.drive = s.drive ∧
    s.afterBurst.counter .discard = s.counter .discard := by
  obtain ⟨b, a, hf⟩ := s.fetch_frame
  have ha := State.readyTest_aside s.fetch.grant
  have hc := State.readyTest_counter s.fetch.grant (c := .discard) (by decide)
  unfold State.afterBurst
  rw [hf] at ha hc ⊢
  exact ⟨⟨b, ha.sched⟩, ha.store, ha.drive, hc⟩

/-- An outstanding burst stands, and the port serves it (R30, R34). -/
theorem State.afterBurst_outstanding {b : Burst} (h : s.sched.burst = some b) :
    s.afterBurst.sched.burst = some b ∧ s.afterBurst.arb.serving = some .prefetch := by
  have hb : s.sched.burst.isSome := by rw [h]; rfl
  unfold State.afterBurst
  rw [State.fetch_outstanding hb, (State.readyTest_aside _).sched, State.readyTest_arb]
  exact ⟨h, if_pos hb⟩

/-! ### The words a burst brings (R29, R35) -/

theorem Words.readAll_eq (m : Words) (a n : Nat) : m.readAll a n = (List.range n).map fun k => m.read (a + k) := by
  refine List.ext_getElem (by simp) fun k h _ => ?_
  rw [Words.getElem_readAll, List.getElem_map, List.getElem_range]

/-- Consecutive words written over a memory: within the span the words, elsewhere what stood there. -/
theorem Words.read_writeAll {m : Words} (h : m.wf) (a b : Nat) (vs : List Half) :
    (m.writeAll a vs).read b = if a ≤ b ∧ b < a + vs.length then vs.getD (b - a) 0 else m.read b := by
  split
  · rename_i hb
    obtain ⟨h1, h2⟩ := hb
    have hk : b - a < vs.length := by omega
    have e := Words.read_writeAll_inside h a (b - a) vs hk
    rw [show a + (b - a) = b by omega] at e
    rw [e, List.getD_eq_getElem vs 0 hk]
  · exact Words.read_writeAll_outside m a b vs (by omega)

/-- A span copied from one memory to another. -/
theorem Words.read_copy {m : Words} (h : m.wf) (u : Words) (a b c n : Nat) :
    (m.writeAll a (u.readAll c n)).read b = if a ≤ b ∧ b < a + n then u.read (c + (b - a)) else m.read b := by
  rw [Words.read_writeAll h, Words.readAll_length]
  split
  · rename_i hb
    have hk : b - a < (u.readAll c n).length := by rw [Words.readAll_length]; omega
    rw [List.getD_eq_getElem _ 0 hk, Words.getElem_readAll]
  · rfl

/-- Within the repeat the reader moves on (R35). -/
theorem Reader.advance_within {r : Reader} {n : Nat} (h : r.offset + n < r.entry.length) :
    r.advance n = some { r with offset := r.offset + n } := if_pos h

/-- At the end of a repeat that is not the last the reader turns to the next one (R35). -/
theorem Reader.advance_repeat {r : Reader} {n : Nat} (h : r.entry.length ≤ r.offset + n) (hr : r.rep < r.entry.repeats) :
    r.advance n = some { r with rep := r.rep + 1, offset := 0 } := (if_neg (Nat.not_lt.mpr h)).trans (if_pos hr)

/-- At the end of the last repeat the reader turns to the next entry, if there is one (R35). -/
theorem Reader.advance_entry {r : Reader} {n : Nat} (h : r.entry.length ≤ r.offset + n) (hr : r.entry.repeats ≤ r.rep) :
    r.advance n = (match r.later with
      | [] => none
      | e :: es => some { entry := e, rep := 1, offset := 0, later := es }) := by
  unfold Reader.advance
  rw [if_neg (Nat.not_lt.mpr h), if_neg (Nat.not_lt.mpr hr)]
  cases r.later <;> rfl

/-- The samples taken by the schedule unit (R35). -/
theorem State.takeSamples_discard (samples : List Half) (s : State) : (s.takeSamples samples).counter .discard =
    min 4294967295 (s.counter .discard + min s.sched.debt samples.length) :=
  State.count_counter _ .discard _

theorem drop_min_length {α : Type} (l : List α) (n : Nat) : l.drop (min n l.length) = l.drop n := by
  rcases Nat.le_total n l.length with h | h
  · rw [Nat.min_eq_left h]
  · rw [Nat.min_eq_right h, List.drop_length, List.drop_eq_nil_of_le h]

/-! ### The completions (R29, R35, R36) -/

variable {first n k : Nat} {void : Bool}

theorem State.sampleBurst_exec (h : s.cond = .running) (hp : s.arb.serving = some .prefetch)
    (hb : s.sched.burst = some (.sample first n void)) :
    exec .sampleBurstCompletion s = .next (s.settle.completeSamples first n void).settle := by
  show Host.Outcome.next (s.whileRunning State.sampleCompletion) = _
  rw [State.whileRunning_eq h]
  unfold State.sampleCompletion
  rw [show s.settle.arb.serving = _ from hp, show s.settle.sched.burst = _ from hb]

theorem State.shapeBurst_exec (h : s.cond = .running) (hp : s.arb.serving = some .prefetch)
    (hb : s.sched.burst = some (.shape k)) :
    exec .shapeLoadBurstCompletion s = .next (s.settle.completeShape k).settle := by
  show Host.Outcome.next (s.whileRunning State.shapeCompletion) = _
  rw [State.whileRunning_eq h]
  unfold State.shapeCompletion
  rw [show s.settle.arb.serving = _ from hp, show s.settle.sched.burst = _ from hb]

/-- The state without its outstanding burst. -/
def State.burstDone (s : State) : State := { s with sched := { s.sched with burst := none } }

theorem State.completeSamples_void (first n : Nat) (s : State) : s.completeSamples first n true = s.burstDone.afterBurst := rfl

theorem State.completeSamples_brought (first n : Nat) (s : State) :
    s.completeSamples first n false = (s.burstDone.takeSamples (s.store.readAll first n)).afterBurst := rfl

/-- A burst with its void flag set brings no samples (R36). -/
theorem State.voidBurst (h : s.cond = .running) (hp : s.arb.serving = some .prefetch)
    (hb : s.sched.burst = some (.sample first n true)) :
    ∃ t, exec .sampleBurstCompletion s = .next t ∧ t.sched.fifo = s.sched.fifo ∧ t.sched.debt = s.sched.debt ∧
      t.sched.reader = s.sched.reader ∧ t.counter .discard = s.counter .discard ∧ t.store = s.store ∧ t.drive = s.drive := by
  obtain ⟨⟨b, hs⟩, hst, hd, hc⟩ := State.afterBurst_frame s.settle.burstDone
  refine ⟨_, State.sampleBurst_exec h hp hb, ?_⟩
  rw [State.completeSamples_void]
  exact ⟨(congrArg Sched.fifo hs :), (congrArg Sched.debt hs :), (congrArg Sched.reader hs :), hc, hst, hd⟩

/-- The samples of a burst repay the debt and fill the FIFO, and the reader moves on (R35). -/
theorem State.sampleBurst (h : s.cond = .running) (hp : s.arb.serving = some .prefetch)
    (hb : s.sched.burst = some (.sample first n false)) :
    ∃ t, exec .sampleBurstCompletion s = .next t ∧
      t.sched.fifo = s.sched.fifo ++ ((List.range n).map (fun k => s.store.read (first + k))).drop s.sched.debt ∧
      t.sched.debt = s.sched.debt - n ∧
      t.counter .discard = min 4294967295 (s.counter .discard + min s.sched.debt n) ∧
      t.sched.reader = s.sched.reader.bind (·.advance n) ∧
      t.sched.queue = s.sched.queue ∧ t.sched.head = s.sched.head ∧ t.store = s.store ∧ t.drive = s.drive := by
  refine ⟨_, State.sampleBurst_exec h hp hb, ?_⟩
  rw [State.completeSamples_brought, ← Words.readAll_eq, show s.settle.store = s.store from rfl]
  have hl : (s.store.readAll first n).length = n := Words.readAll_length _ _ _
  revert hl
  generalize s.store.readAll first n = samples
  rintro rfl
  obtain ⟨⟨b, hs⟩, hst, hd, hc⟩ := State.afterBurst_frame (s.settle.burstDone.takeSamples samples)
  refine ⟨(congrArg Sched.fifo hs).trans ?_, (congrArg Sched.debt hs).trans ?_, hc.trans ?_,
    (congrArg Sched.reader hs :), (congrArg Sched.queue hs :), (congrArg Sched.head hs :), hst, hd⟩
  · exact congrArg (s.sched.fifo ++ ·) (drop_min_length samples s.sched.debt)
  · show s.sched.debt - min s.sched.debt samples.length = _
    omega
  · exact State.takeSamples_discard samples _

/-- The words of the shape copy after shape `k` (R29). -/
def State.shapesWith (k : Nat) (s : State) : Words := s.sched.shapes.writeAll (k * 256) (s.store.readAll (shapeStart k) 256)

/-- The state in which shape `k`, by which the shape copy holds `m`, has entered it (R29). -/
def State.shapeTaken (k : Nat) (m : Words) (s : State) : State :=
  { s with sched := { s.sched with
      burst := none
      shapes := m
      shapeCount := s.sched.shapeCount + 1
      loaded := decide (15 ≤ k) } }

theorem State.completeShape_eq (k : Nat) (s : State) : s.completeShape k =
    State.afterBurst (if k < 15 then (s.shapeTaken k (s.shapesWith k)).requestBurst (.shape (k + 1))
      else s.shapeTaken k (s.shapesWith k)) := by
  unfold State.completeShape State.shapeTaken State.shapesWith
  rfl

/-- A completed shape load leaves the shape copy with its words, and the rest of the unit up to the burst (R29). -/
theorem State.completeShape_frame (k : Nat) (s : State) :
    (∃ b, (s.completeShape k).sched = { (s.shapeTaken k (s.shapesWith k)).sched with burst := b }) ∧
    (s.completeShape k).store = s.store ∧ (s.completeShape k).drive = s.drive := by
  rw [State.completeShape_eq]
  generalize s.shapesWith k = m
  split
  · obtain ⟨⟨b, hs⟩, hst, hd, -⟩ := State.afterBurst_frame ((s.shapeTaken k m).requestBurst (.shape (k + 1)))
    exact ⟨⟨b, hs⟩, hst, hd⟩
  · obtain ⟨⟨b, hs⟩, hst, hd, -⟩ := State.afterBurst_frame (s.shapeTaken k m)
    exact ⟨⟨b, hs⟩, hst, hd⟩

/-- Before the last shape the next one is requested and served at once (R29, R30). -/
theorem State.completeShape_next (hk : k < 15) (s : State) : (s.completeShape k).sched.burst = some (.shape (k + 1)) ∧
    (s.completeShape k).arb.serving = some .prefetch := by
  rw [State.completeShape_eq, if_pos hk]
  generalize s.shapesWith k = m
  exact State.afterBurst_outstanding rfl

/-- The words of the shape copy after shape `k` (R29). -/
theorem State.shapesWith_read (h : s.sched.shapes.wf) (k a : Nat) : (s.shapesWith k).read a =
    if k * 256 ≤ a ∧ a < k * 256 + 256 then s.store.read (8191 * 4096 + a) else s.sched.shapes.read a := by
  unfold State.shapesWith
  rw [Words.read_copy h]
  split
  · rename_i ha
    rw [shapeStart, Nat.add_assoc, Nat.add_sub_cancel' ha.1]
  · rfl

/-- A shape enters the shape copy (R29). -/
theorem State.shapeBurst (h : s.cond = .running) (hp : s.arb.serving = some .prefetch)
    (hb : s.sched.burst = some (.shape k)) (hw : s.sched.shapes.wf) :
    ∃ t, exec .shapeLoadBurstCompletion s = .next t ∧ t.sched.shapeCount = s.sched.shapeCount + 1 ∧
      (∀ a, t.sched.shapes.read a = (if k * 256 ≤ a ∧ a < k * 256 + 256
        then s.store.read (8191 * 4096 + a) else s.sched.shapes.read a)) ∧
      (k < 15 → t.sched.burst = some (.shape (k + 1)) ∧ t.arb.serving = some .prefetch ∧ t.sched.loaded = false) ∧
      (15 ≤ k → t.sched.loaded = true) ∧ t.store = s.store ∧ t.drive = s.drive := by
  have hread := State.shapesWith_read (s := s.settle) hw k
  have hnext : k < 15 → _ := fun hk => State.completeShape_next hk s.settle
  obtain ⟨⟨b, hs⟩, hst, hd⟩ := s.settle.completeShape_frame k
  refine ⟨_, State.shapeBurst_exec h hp hb, ?_⟩
  generalize s.settle.shapesWith k = m at hs hread
  generalize s.settle.completeShape k = u at hs hst hd hnext
  have hloaded : u.sched.loaded = decide (15 ≤ k) := congrArg Sched.loaded hs
  have hshapes : u.sched.shapes = m := congrArg Sched.shapes hs
  refine ⟨(congrArg Sched.shapeCount hs :), fun a => ?_, fun hk => ?_, fun hk => ?_, hst, hd⟩
  · exact (congrArg (fun m : Words => m.read a) hshapes).trans (hread a)
  · exact ⟨(hnext hk).1, (hnext hk).2, hloaded.trans (decide_eq_false (Nat.not_le.mpr hk))⟩
  · exact hloaded.trans (decide_eq_true hk)

/-- Settles O44: the three completions, and the reader's three moves. -/
theorem burstsComplete : Obligations.BurstsComplete := by
  refine ⟨fun s first n => State.voidBurst, fun s first n h hp hb => ?_, fun s k => State.shapeBurst⟩
  obtain ⟨t, ht, hfifo, hdebt, hcount, hreader, hrest⟩ := State.sampleBurst h hp hb
  refine ⟨t, ht, hfifo, hdebt, hcount, fun r hr h1 => ?_, fun r hr h1 h2 => ?_, fun r hr h1 h2 => ?_, hrest⟩
  · rw [hreader, hr]; exact Reader.advance_within h1
  · rw [hreader, hr]; exact Reader.advance_repeat h1 h2
  · rw [hreader, hr]; exact Reader.advance_entry h1 h2

end Sys2Proof.Machine

namespace Sys2Proof.Machine

variable {s : State}

/-! ### The port granted anew (R30) -/

/-- With no chunk left the port turns to the burst, or to IDLE (R30). -/
theorem State.grant_idle (h : s.arb.chunk = none) :
    s.grant.arb.serving = if s.sched.burst = none then none else some .prefetch := by
  show (if s.sched.burst.isSome then _ else if s.arb.chunk.isSome then _ else _) = _
  rw [h]
  cases s.sched.burst <;> rfl

/-- A finished chunk leaves the command answered and the port with what waits for it (R30, R31). -/
theorem State.finishChunk_frame {r : Reply} (h : s.port.reply = some r) (words : List Word) :
    (s.finishChunk words).arb.chunk = none ∧ (s.finishChunk words).port.progress = none ∧
    (s.finishChunk words).port.reply = some { r with status := .ok, words := words } ∧
    (s.finishChunk words).arb.serving = (if s.sched.burst = none then none else some .prefetch) := by
  refine ⟨rfl, rfl, ?_, State.grant_idle rfl⟩
  show s.port.reply.map _ = _
  rw [h]
  rfl

/-! ### A transfer requested (R31) -/

/-- A chunk requested while the port is idle is served at once (R30). -/
theorem State.requestChunk_serving (c : Chunk) (s : State) :
    (s.requestChunk c).arb.serving = if s.arb.serving = none then some .supervisor else s.arb.serving := by
  show s.arb.serving.or _ = _
  cases s.arb.serving <;> rfl

/-- A command whose arguments pass their tests (R199). -/
theorem withRanges_passed {tests : List Bool} {owner : State → State} (h : firstOffence tests = none) :
    withRanges tests owner s = owner s := by
  unfold withRanges
  rw [h]

/-- A command with an offending argument (R199). -/
theorem withRanges_failed {tests : List Bool} {owner : State → State} {n : Nat} (h : firstOffence tests = some n) :
    withRanges tests owner s = s.invalid n := by
  unfold withRanges
  rw [h]

section
variable {page offset count : Word} {ws : List Word} (hp : page.toNat ≤ 8191) (ho : offset.toNat ≤ 4095)
  (h1 : 1 ≤ count.toNat) (h2 : count.toNat ≤ 256)
include hp ho h1 h2

/-- A transfer within its page passes its tests (R31). -/
theorem transfer_passed (h : offset.toNat + count.toNat ≤ 4096) :
    firstOffence (transferTests (page :: offset :: count :: ws)) = none := by
  simp [transferTests, inRange, argAt, firstOffence, hp, ho, h1, h2, h]

/-- A transfer beyond its page fails the third test (R31). -/
theorem transfer_failed (h : 4096 < offset.toNat + count.toNat) :
    firstOffence (transferTests (page :: offset :: count :: ws)) = some 3 := by
  simp [transferTests, inRange, argAt, firstOffence, hp, ho, h1, h2, Nat.not_le.mpr h]

end

/-- A chunk placed by a command stays in progress with a PENDING reply (R31, R198). -/
theorem State.requestChunk_inProgress (s : State) (c : Chunk) (code : Nat) (tag : Byte) (n : Nat) {t : State}
    (ht : t = ((s.inProgress code tag n).requestChunk c).settle) :
    t.arb.chunk = some c ∧ t.arb.serving = (if s.arb.serving = none then some .supervisor else s.arb.serving) ∧
    t.port.progress = some (code, tag) ∧
    t.port.reply = some { tag := tag, code := code, status := .pending, words := [] } ∧
    t.store = s.store ∧ t.sched = s.sched ∧ t.run = s.run ∧ t.drive = s.drive := by
  subst ht
  exact ⟨rfl, (s.inProgress code tag n).requestChunk_serving c, rfl, rfl, rfl, rfl, rfl, rfl⟩

section
variable {tag : Byte} {page offset count : Word} {ws : List Word}

theorem State.writePage_exec (h : s.takesCommands) (hl : ws.length = (count.toNat + 1) / 2) :
    exec (.writePage tag (page :: offset :: count :: ws)) s = .next
      (withRanges (transferTests (page :: offset :: count :: ws))
        (State.requestChunk (.write (page.toNat * 4096 + offset.toNat) (unpackSamples count.toNat ws)))
        (s.inProgress 4 tag (3 + ws.length))).settle := by
  show Host.Outcome.next (s.command 4 tag _ _) = _
  rw [State.command_eq h, show (page :: offset :: count :: ws).length = 3 + ws.length by simp only [List.length_cons]; omega]
  unfold State.writePage
  rw [if_neg]
  · rfl
  · simp only [List.length_cons, argAt, List.getD_cons_succ, List.getD_cons_zero]
    omega

theorem State.readPage_exec (h : s.takesCommands) :
    exec (.readPage tag [page, offset, count]) s = .next
      (withRanges (transferTests [page, offset, count])
        (State.requestChunk (.read (page.toNat * 4096 + offset.toNat) count.toNat)) (s.inProgress 5 tag 3)).settle := by
  show Host.Outcome.next (s.command 5 tag _ _) = _
  rw [State.command_eq h, withCount_of_eq (n := 3) rfl]
  rfl

end

/-! ### A transfer completed (R31) -/

section
variable {first count : Nat} {ws : List Half}

theorem State.writeChunk_exec (h : s.cond = .running) (hs : s.arb.serving = some .supervisor)
    (hc : s.arb.chunk = some (.write first ws)) :
    exec .writeChunkCompletion s = .next ((s.settle.storeChunk first ws).finishChunk []).settle := by
  show Host.Outcome.next (s.whileRunning State.writeCompletion) = _
  rw [State.whileRunning_eq h]
  unfold State.writeCompletion
  rw [State.chunkUnderWay_eq (s := s.settle) |>.mpr ⟨hs, hc⟩]

theorem State.readChunk_exec (h : s.cond = .running) (hs : s.arb.serving = some .supervisor)
    (hc : s.arb.chunk = some (.read first count)) :
    exec .readChunkCompletion s =
      .next (s.settle.finishChunk (packSamples ((List.range count).map fun k => s.store.read (first + k)))).settle := by
  show Host.Outcome.next (s.whileRunning State.readCompletion) = _
  rw [State.whileRunning_eq h]
  unfold State.readCompletion
  rw [show s.settle.arb.serving = _ from hs, show s.settle.arb.chunk = _ from hc, ← Words.readAll_eq]
  rfl

/-- Outside page 8191, and in OFFLINE, a stored chunk leaves the schedule unit alone (R29, R31). -/
theorem State.storeChunk_sched (h : first / 4096 ≠ 8191 ∨ s.run.state = .offline) :
    (s.storeChunk first ws).sched = s.sched := by
  have hn : ¬(first / 4096 = 8191 ∧ s.online = true) := by
    rintro ⟨h1, h2⟩
    rcases h with h | h
    · exact h h1
    · simp [State.online, h] at h2
  unfold State.storeChunk
  rw [if_neg hn]

end

/-- Settles O45: the command places its chunk, the completion writes or reads exactly its words. -/
theorem pagesAreTransferred : Obligations.PagesAreTransferred := by
  refine ⟨fun s tag page offset count ws h hl => ⟨fun hp ho h1 h2 hin => ?_, fun hp ho h1 h2 hout => ?_⟩,
    fun s first ws r h hw hs hc hr => ?_, fun s first count r h hs hc hr => ?_⟩
  · rw [State.writePage_exec h hl, State.readPage_exec h, withRanges_passed (transfer_passed hp ho h1 h2 hin),
      withRanges_passed (transfer_passed hp ho h1 h2 hin)]
    exact ⟨⟨_, rfl, State.requestChunk_inProgress s _ 4 tag _ rfl⟩, ⟨_, rfl, State.requestChunk_inProgress s _ 5 tag _ rfl⟩⟩
  · rw [State.writePage_exec h hl, State.readPage_exec h, withRanges_failed (transfer_failed hp ho h1 h2 hout),
      withRanges_failed (transfer_failed hp ho h1 h2 hout)]
    exact ⟨rfl, rfl⟩
  · obtain ⟨h1, h2, h3, h4⟩ := State.finishChunk_frame (s := s.settle.storeChunk first ws) hr []
    exact ⟨_, State.writeChunk_exec h hs hc, h1, h2, h3, Words.writeAll_wf hw _ _, fun a => Words.read_writeAll hw first a ws,
      h4, rfl, rfl, rfl, fun hx => State.storeChunk_sched (s := s.settle) hx, rfl, rfl⟩
  · obtain ⟨h1, h2, h3, h4⟩ := State.finishChunk_frame (s := s.settle) hr
      (packSamples ((List.range count).map fun k => s.store.read (first + k)))
    exact ⟨_, State.readChunk_exec h hs hc, h1, h2, h3, h4, rfl, rfl, rfl, rfl⟩

end Sys2Proof.Machine

namespace Sys2Proof.Machine

variable {s : State}

/-! ### What the schedule operations leave (R36, R39 to R42) -/

/-- A schedule unit with an entry placed behind the last one (R39). -/
def Sched.placed (e : Entry) (c : Sched) : Sched :=
  { c with
    queue := c.queue ++ [e]
    reader := match c.reader with
      | none => some { entry := e, rep := 1, offset := 0, later := [] }
      | some r => some { r with later := r.later ++ [e] } }

theorem Sched.placed_reader (e : Entry) (c : Sched) : (c.placed e).reader ≠ none := by
  unfold Sched.placed
  dsimp only
  split <;> exact Option.some_ne_none _

/-- The reader's test touches the outstanding burst and the port alone (R34). -/
theorem State.fetch_parts (s : State) : (∃ b, s.fetch.sched = { s.sched with burst := b }) ∧ s.fetch.store = s.store ∧
    s.fetch.drive = s.drive ∧ s.fetch.run = s.run ∧ s.fetch.port = s.port := by
  obtain ⟨b, a, e⟩ := s.fetch_frame
  rw [e]
  exact ⟨⟨b, rfl⟩, rfl, rfl, rfl, rfl⟩

/-- Behind a last entry the new one is placed, with the position untouched (R39). -/
theorem State.append_behind (e : Entry) (h : s.sched.queue ≠ []) :
    ∃ b, (s.append e).sched = { s.sched.placed e with burst := b } := by
  have hf : s.sched.queue.isEmpty = false := by rw [List.isEmpty_eq_false_iff]; exact h
  unfold State.append
  dsimp only
  rw [hf, if_neg Bool.false_ne_true]
  exact (State.fetch_parts { s with sched := s.sched.placed e }).1

/-- In an empty queue the new entry is the head, positioned at (1, 0) (R39, R42). -/
theorem State.append_first (e : Entry) (h : s.sched.queue = []) :
    ∃ b, (s.append e).sched = { (s.sched.placed e).position e 1 s.sched.next with burst := b } := by
  have hf : s.sched.queue.isEmpty = true := by rw [h]; rfl
  unfold State.append
  dsimp only
  rw [hf, if_pos rfl]
  exact (State.fetch_parts { s with sched := (s.sched.placed e).position e 1 s.sched.next }).1

theorem State.append_parts (e : Entry) (s : State) : (s.append e).store = s.store ∧ (s.append e).drive = s.drive ∧
    (s.append e).run = s.run ∧ (s.append e).port = s.port := (State.fetch_parts { s with sched := _ }).2

/-- A flush empties FIFO and debt, and puts the reader at the head (R36). -/
theorem State.flush_sched (s : State) : ∃ b, s.flush.sched =
    { s.sched with fifo := [], debt := 0, burst := b, reader := s.sched.readerAtHead } :=
  (State.fetch_parts { s with sched := _ }).1

theorem State.flush_parts (s : State) : s.flush.store = s.store ∧ s.flush.drive = s.drive ∧ s.flush.run = s.run ∧
    s.flush.port = s.port := (State.fetch_parts { s with sched := _ }).2

/-- Behind a schedule command come the READY test and the reply (R74, R198): neither touches the schedule unit. -/
theorem State.tested_finish {u : State} {r : Reply} (h : u.port.reply = some r) {t : State}
    (ht : t = (u.readyTest.finish .ok []).settle) :
    t.hasReply r.code r.tag .ok [] ∧ t.sched = u.sched ∧ t.drive = u.drive ∧ t.store = u.store ∧
      t.run = u.readyTest.run := by
  subst ht
  exact ⟨State.finish_hasReply (u.readyTest_reply.trans h), u.readyTest_aside.sched, u.readyTest_aside.drive,
    u.readyTest_aside.store, rfl⟩

/-- Without a head the READY test does not end in READY (R74). -/
theorem State.readyTest_headless (h : s.sched.head = none) : s.readyTest.run.state ≠ .ready := by
  have hc : s.readyConditions = false := by simp [State.readyConditions, h]
  unfold State.readyTest
  split
  case h_1 hs =>
    rw [hc, if_neg Bool.false_ne_true, hs]
    decide
  case h_2 =>
    rw [hc]
    split
    · rw [State.changeState_state]
      decide
    · rw [if_neg Bool.false_ne_true, State.changeState_state]
      decide
  case h_3 hs => exact hs

/-! ### APPEND SEGMENT (R38, R39) -/

/-- The argument words of an entry (R39, R202). -/
def Entry.words (e : Entry) : List Word :=
  [e.tag, e.startPage, e.length, e.repeats, e.gain, e.fadeIn, e.fadeOut, e.shape].map (BitVec.ofNat 32)

/-- The argument words of an entry in range hold its fields. -/
theorem Entry.words_toNat {e : Entry} (h : e.inRanges) : e.words.map BitVec.toNat =
    [e.tag, e.startPage, e.length, e.repeats, e.gain, e.fadeIn, e.fadeOut, e.shape] := by
  unfold Entry.inRanges at h
  simp only [Entry.words, List.map_cons, List.map_nil]
  rw [itemWord_toNat (by omega), itemWord_toNat (by omega), itemWord_toNat (by omega), itemWord_toNat (by omega),
    itemWord_toNat (by omega), itemWord_toNat (by omega), itemWord_toNat (by omega), itemWord_toNat (by omega)]

theorem firstOffence_of_all {l : List Bool} (h : ∀ b ∈ l, b = true) : firstOffence l = none := by
  induction l with
  | nil => rfl
  | cons b l ih =>
    rw [h b List.mem_cons_self, firstOffence, ih fun c hc => h c (List.mem_cons_of_mem _ hc)]
    rfl

/-- The argument words of an entry in range pass every test and give that entry (R38, R39). -/
theorem Entry.words_segment {e : Entry} {a0 a1 a2 a3 a4 a5 a6 a7 : Word} (h : e.inRanges)
    (hw : [a0, a1, a2, a3, a4, a5, a6, a7] = e.words) :
    segmentOffence [a0, a1, a2, a3, a4, a5, a6, a7] = none ∧ segmentOf [a0, a1, a2, a3, a4, a5, a6, a7] = e := by
  have hn := Entry.words_toNat h
  rw [← hw] at hn
  simp only [List.map_cons, List.map_nil, List.cons.injEq, and_true] at hn
  obtain ⟨h0, h1, h2, h3, h4, h5, h6, h7⟩ := hn
  unfold Entry.inRanges at h
  constructor
  · simp only [segmentOffence, inRange, argAt, List.getD_cons_succ, List.getD_cons_zero, h0, h1, h2, h3, h4, h5, h6, h7]
    rw [firstOffence_of_all (by simp only [List.forall_mem_cons, decide_eq_true_eq, List.not_mem_nil,
      false_implies, implies_true, and_true]; omega)]
    dsimp only
    rw [if_neg (by omega), if_neg (by omega)]
  · simp only [segmentOf, argAt, List.getD_cons_succ, List.getD_cons_zero, h0, h1, h2, h3, h4, h5, h6, h7]

section
variable {tag : Byte} {e : Entry} {a0 a1 a2 a3 a4 a5 a6 a7 : Word} (h : s.takesCommands) (he : e.inRanges)
  (hw : [a0, a1, a2, a3, a4, a5, a6, a7] = e.words) (ho : s.run.state ≠ .offline)
include h he hw ho

theorem State.appendSegment_exec : exec (.appendSegment tag [a0, a1, a2, a3, a4, a5, a6, a7]) s = .next
    (if 64 ≤ s.sched.queue.length then (s.inProgress 6 tag 8).refuse .full
      else (((s.inProgress 6 tag 8).append e).readyTest).finish .ok []).settle := by
  show Host.Outcome.next (s.command 6 tag _ _) = _
  obtain ⟨h1, h2⟩ := Entry.words_segment he hw
  rw [State.command_eq h, withCount_of_eq (n := 8) rfl]
  unfold State.appendSegment
  rw [if_neg (show ¬(s.inProgress 6 tag _).run.state = .offline from ho), h1, h2]
  rfl

/-- A full queue refuses the entry (R39). -/
theorem State.appendSegment_full (hl : 64 ≤ s.sched.queue.length) :
    exec (.appendSegment tag [a0, a1, a2, a3, a4, a5, a6, a7]) s = .next (s.replied 6 tag 8 .full []) := by
  rw [State.appendSegment_exec h he hw ho, if_pos hl]
  rfl

/-- An entry in range is placed, and is the head of an empty queue (R39, R42). -/
theorem State.appendSegment_placed (hl : s.sched.queue.length < 64) :
    ∃ t, exec (.appendSegment tag [a0, a1, a2, a3, a4, a5, a6, a7]) s = .next t ∧ t.hasReply 6 tag .ok [] ∧
      t.sched.queue = s.sched.queue ++ [e] ∧ t.sched.fifo = s.sched.fifo ∧
      (s.sched.queue = [] → t.sched.head = some { rep := 1, offset := 0, start := s.sched.next } ∧
        t.sched.next = s.sched.next ∧ t.sched.replay = s.sched.next) ∧
      (s.sched.queue ≠ [] → t.sched.head = s.sched.head ∧ t.sched.next = s.sched.next ∧
        t.sched.replay = s.sched.replay) ∧
      t.sched.reader ≠ none ∧ t.drive = s.drive ∧ t.store = s.store := by
  obtain ⟨hst, hd, -, hp⟩ := (s.inProgress 6 tag 8).append_parts e
  obtain ⟨hr, hs, hd', hst', -⟩ := State.tested_finish (congrArg Port.reply hp) rfl
  refine ⟨_, (State.appendSegment_exec h he hw ho).trans (by rw [if_neg (Nat.not_le.mpr hl)]), hr, ?_⟩
  rcases eq_or_ne s.sched.queue [] with hq | hq
  · obtain ⟨b, hb⟩ := State.append_first (s := s.inProgress 6 tag 8) e hq
    rw [hb] at hs
    have hn : indexAt s.sched.next 1 e.length = s.sched.next := indexAt_one _ _
    exact ⟨(congrArg Sched.queue hs :), (congrArg Sched.fifo hs :),
      fun _ => ⟨(congrArg Sched.head hs :), (congrArg Sched.next hs).trans hn, (congrArg Sched.replay hs).trans hn⟩,
      fun hne => absurd hq hne, fun hr => Sched.placed_reader e s.sched ((congrArg Sched.reader hs).symm.trans hr),
      hd'.trans hd, hst'.trans hst⟩
  · obtain ⟨b, hb⟩ := State.append_behind (s := s.inProgress 6 tag 8) e hq
    rw [hb] at hs
    exact ⟨(congrArg Sched.queue hs :), (congrArg Sched.fifo hs :), fun he => absurd he hq,
      fun _ => ⟨(congrArg Sched.head hs :), (congrArg Sched.next hs :), (congrArg Sched.replay hs :)⟩,
      fun hr => Sched.placed_reader e s.sched ((congrArg Sched.reader hs).symm.trans hr), hd'.trans hd, hst'.trans hst⟩

end

/-! ### DISCARD SCHEDULE and SEEK REPEAT (R40, R41) -/

section
variable {tag : Byte} (h : s.takesCommands)
include h

theorem State.discardSchedule_exec : exec (.discardSchedule tag []) s =
    .next (inStates scheduleStates State.discardSchedule (s.inProgress 7 tag 0)).settle := by
  show Host.Outcome.next (s.command 7 tag _ _) = _
  rw [State.command_eq h, withCount_of_eq (n := 0) rfl]
  rfl

theorem State.seekRepeat_exec (r : Word) : exec (.seekRepeat tag [r]) s =
    .next (inStates scheduleStates (State.seekRepeat [r]) (s.inProgress 8 tag 1)).settle := by
  show Host.Outcome.next (s.command 8 tag _ _) = _
  rw [State.command_eq h, withCount_of_eq (n := 1) rfl]
  rfl

/-- The schedule discarded: no entry, no head, nothing fetched, and the node not in READY (R40). -/
theorem State.discardSchedule_taken (hst : s.run.state ∈ scheduleStates) :
    ∃ t, exec (.discardSchedule tag []) s = .next t ∧ t.hasReply 7 tag .ok [] ∧ t.sched.queue = [] ∧
      t.sched.head = none ∧ t.sched.current = none ∧ t.sched.previous = none ∧ t.sched.fifo = [] ∧ t.sched.debt = 0 ∧
      t.sched.reader = none ∧ t.sched.next = s.sched.next ∧ t.sched.replay = s.sched.replay ∧
      t.run.state ≠ .ready ∧ t.drive = s.drive ∧ t.store = s.store := by
  have hparts : (s.inProgress 7 tag 0).discardQueue.store = s.store ∧ (s.inProgress 7 tag 0).discardQueue.drive = s.drive ∧
    _ ∧ (s.inProgress 7 tag 0).discardQueue.port = (s.inProgress 7 tag 0).port := State.flush_parts _
  obtain ⟨b, hb⟩ : ∃ b, (s.inProgress 7 tag 0).discardQueue.sched = { s.sched with
      queue := [], head := none, current := none, previous := none, fifo := [], debt := 0, burst := b, reader := none } :=
    State.flush_sched _
  obtain ⟨hst', hd', -, hp⟩ := hparts
  obtain ⟨hr, hs, hd, hst'', hrun⟩ := State.tested_finish (congrArg Port.reply hp) rfl
  refine ⟨_, (State.discardSchedule_exec h).trans (by rw [inStates_of_mem (s := s.inProgress 7 tag 0) hst]; rfl), hr, ?_⟩
  have hhead : (s.inProgress 7 tag 0).discardQueue.sched.head = none := congrArg Sched.head hb
  rw [hb] at hs
  exact ⟨(congrArg Sched.queue hs :), (congrArg Sched.head hs :), (congrArg Sched.current hs :), (congrArg Sched.previous hs :),
    (congrArg Sched.fifo hs :), (congrArg Sched.debt hs :), (congrArg Sched.reader hs :), (congrArg Sched.next hs :),
    (congrArg Sched.replay hs :), fun hx => State.readyTest_headless hhead ((congrArg Run.state hrun).symm.trans hx),
    hd.trans hd', hst''.trans hst'⟩

/-- SEEK REPEAT to a repeat that the head entry has (R41, R42). -/
theorem State.seekRepeat_taken (hst : s.run.state ∈ scheduleStates) {e : Entry} {rest : List Entry} {p : HeadPos} {r : Word}
    (hq : s.sched.queue = e :: rest) (hh : s.sched.head = some p) (h1 : 1 ≤ r.toNat) (h2 : r.toNat ≤ e.repeats) :
    ∃ t, exec (.seekRepeat tag [r]) s = .next t ∧ t.hasReply 8 tag .ok [] ∧ t.sched.queue = s.sched.queue ∧
      t.sched.head = some { rep := r.toNat, offset := 0, start := p.start } ∧
      t.sched.next = p.start + BitVec.ofNat 32 ((r.toNat - 1) * e.length) ∧ t.sched.replay = t.sched.next ∧
      t.sched.fifo = [] ∧ t.sched.debt = 0 ∧
      t.sched.reader = some { entry := e, rep := r.toNat, offset := 0, later := rest } ∧
      t.drive = s.drive ∧ t.store = s.store := by
  obtain ⟨u, hu⟩ : ∃ u : State, u = { s.inProgress 8 tag 1 with sched := s.sched.position e r.toNat p.start } := ⟨_, rfl⟩
  have hex : exec (.seekRepeat tag [r]) s = .next (u.flush.readyTest.finish .ok []).settle := by
    rw [State.seekRepeat_exec h, inStates_of_mem (s := s.inProgress 8 tag 1) hst]
    unfold State.seekRepeat
    rw [show (s.inProgress 8 tag 1).sched.queue = _ from hq, show (s.inProgress 8 tag 1).sched.head = _ from hh]
    dsimp only
    rw [if_pos (show inRange (argAt [r] 0) 1 e.repeats = true from decide_eq_true ⟨h1, h2⟩), hu]
    rfl
  obtain ⟨b, hb⟩ := u.flush_sched
  obtain ⟨hst', hd', -, hp⟩ := u.flush_parts
  have hreader : u.sched.readerAtHead = some { entry := e, rep := r.toNat, offset := 0, later := rest } := by
    unfold Sched.readerAtHead
    rw [hu, show (s.sched.position e r.toNat p.start).queue = e :: rest from hq]
    rfl
  rw [hreader] at hb
  subst hu
  obtain ⟨hr, hs, hd, hst'', -⟩ := State.tested_finish (congrArg Port.reply hp) rfl
  refine ⟨_, hex, hr, ?_⟩
  rw [hb] at hs
  exact ⟨(congrArg Sched.queue hs :), (congrArg Sched.head hs :), (congrArg Sched.next hs :),
    (congrArg Sched.replay hs).trans (congrArg Sched.next hs).symm, (congrArg Sched.fifo hs :), (congrArg Sched.debt hs :),
    (congrArg Sched.reader hs :), hd.trans hd', hst''.trans hst'⟩

/-- SEEK REPEAT to a repeat that the head entry does not have (R41). -/
theorem State.seekRepeat_invalid (hst : s.run.state ∈ scheduleStates) {e : Entry} {rest : List Entry} {p : HeadPos} {r : Word}
    (hq : s.sched.queue = e :: rest) (hh : s.sched.head = some p) (hr : r.toNat = 0 ∨ e.repeats < r.toNat) :
    exec (.seekRepeat tag [r]) s = .next (s.replied 8 tag 1 .invalid [1]) := by
  have hn : ¬(1 ≤ r.toNat ∧ r.toNat ≤ e.repeats) := by omega
  rw [State.seekRepeat_exec h, inStates_of_mem (s := s.inProgress 8 tag 1) hst]
  unfold State.seekRepeat
  rw [show (s.inProgress 8 tag 1).sched.queue = _ from hq, show (s.inProgress 8 tag 1).sched.head = _ from hh]
  dsimp only
  rw [if_neg (show ¬inRange (argAt [r] 0) 1 e.repeats = true from fun hx => hn (of_decide_eq_true hx))]
  rfl

/-- SEEK REPEAT without a head (R41). -/
theorem State.seekRepeat_headless (hst : s.run.state ∈ scheduleStates) (hh : s.sched.head = none) (r : Word) :
    exec (.seekRepeat tag [r]) s = .next (s.replied 8 tag 1 .refusedCondition []) := by
  rw [State.seekRepeat_exec h, inStates_of_mem (s := s.inProgress 8 tag 1) hst]
  unfold State.seekRepeat
  rw [show (s.inProgress 8 tag 1).sched.head = _ from hh]
  cases (s.inProgress 8 tag 1).sched.queue <;> rfl

end

/-- Settles O50: each command in the states that take it, and refused outside them. -/
theorem scheduleCommands : Obligations.ScheduleCommands := by
  refine fun s tag h => ⟨fun e a0 a1 a2 a3 a4 a5 a6 a7 he hw ho => ?_, fun hst => ⟨State.discardSchedule_taken h hst, ?_, ?_⟩,
    fun hst r => ?_⟩
  · exact ⟨State.appendSegment_placed h he hw ho, State.appendSegment_full h he hw ho⟩
  · exact fun e rest p r hq hh => ⟨State.seekRepeat_taken h hst hq hh, State.seekRepeat_invalid h hst hq hh⟩
  · exact fun r hh => State.seekRepeat_headless h hst hh r
  · rw [State.discardSchedule_exec h, State.seekRepeat_exec h,
      inStates_of_not_mem (allowed := scheduleStates) (s := s.inProgress 7 tag 0) hst,
      inStates_of_not_mem (allowed := scheduleStates) (s := s.inProgress 8 tag 1) hst]
    exact ⟨rfl, rfl⟩

end Sys2Proof.Machine

namespace Sys2Proof.Machine

variable {s t u : State} {l : Lane}

/-! ### The ring ports through an instant and a boundary -/

theorem State.lane_of_ring (h : t.ring = s.ring) (l : Lane) : t.lane l = s.lane l := congrArg (·.lane l) h

theorem State.fetch_ring (s : State) : s.fetch.ring = s.ring := by
  obtain ⟨b, a, e⟩ := s.fetch_frame
  rw [e]

theorem State.flush_ring (s : State) : s.flush.ring = s.ring := State.fetch_ring { s with sched := _ }

theorem Rewind.keeps_ring (h : Rewind s t) : t.ring = s.ring := by
  cases h with
  | still h => exact (State.depot_eq_iff.mp h).2
  | hold => rfl
  | rewind =>
    unfold State.rewind
    split
    · exact State.flush_ring _
    · exact State.flush_ring _

theorem Rewinds.keeps_ring (h : Rewinds s t) : t.ring = s.ring :=
  h.keeps (P := fun u => u.ring = s.ring) (fun m e => m.keeps_ring.trans e) rfl

theorem State.runMarker_ring (k : Nat) (m : MarkerSlot) (r : PosRecord) (s : State) : (s.runMarker k m r).ring = s.ring := by
  unfold State.runMarker
  split
  · rfl
  · split
    · exact (State.depot_eq_iff.mp (s.originate_depot _ _ _)).2
    · exact (State.depot_eq_iff.mp (s.post_depot _ _ _)).2
  · rfl

theorem State.evaluateMarkers_ring (r : PosRecord) (s : State) : (s.evaluateMarkers r).ring = s.ring := by
  unfold State.evaluateMarkers
  refine foldl_keeps State.ring _ (fun t x => ?_) _ s
  split
  · exact (State.runMarker_ring _ _ _ _).trans (State.depot_eq_iff.mp (t.post_depot _ _ _)).2
  · rfl

theorem State.report_ring (f : InstantFacts) (r : InstantReport) (s : State) : (s.report f r).ring = s.ring := by
  by_cases h : r = .markers
  · subst h
    simp only [State.report]
    split
    · rfl
    · split
      · exact s.evaluateMarkers_ring _
      · rfl
  · exact (s.report_rewinds f h).keeps_ring

theorem State.reported_ring (first : List InstantReport) (s : State) : (s.reported first).ring = s.ring := by
  refine (foldl_keeps State.ring _ (fun t r => t.report_ring _ r) _ _).trans ?_
  exact ((State.depot_eq_iff.mp s.instantFacts_depot).2).trans (State.depot_eq_iff.mp s.consume_depot).2

/-- An output instant leaves the ring ports (R123). -/
theorem State.actInstant_ring (first : List InstantReport) (s : State) : (s.actInstant first).ring = s.ring := by
  rw [State.actInstant_eq]
  split
  · exact (State.fetch_ring _).trans (s.reported_ring first)
  · exact s.reported_ring first

/-- An output instant enters and leaves OFFLINE as little as its reports do (R72, R91). -/
theorem State.actInstant_offline (first : List InstantReport) (s : State) :
    (s.actInstant first).run.state = .offline ↔ s.run.state = .offline := by
  have h : (s.reported first).run.state = .offline ↔ s.run.state = .offline := by
    refine (State.reports_moves (A := fun _ => True) _ _ _ fun _ _ => trivial).offline_iff.trans ?_
    rw [s.instantFacts_frame.1]
  rw [State.actInstant_eq]
  split
  · rw [State.fetch_state]
    exact h
  · exact h

theorem State.instant_lane (first : List InstantReport) (s : State) (l : Lane) : (s.instant first).lane l = s.lane l := by
  unfold State.instant
  split
  · rfl
  · exact (State.lane_of_ring (State.actInstant_ring first _) l).trans (State.elapse_lane s _ l)

theorem State.instant_offline (first : List InstantReport) (s : State) :
    (s.instant first).run.state = .offline ↔ s.run.state = .offline := by
  unfold State.instant
  split
  · rfl
  · exact State.actInstant_offline first _

/-! ### Ring closure through the acts of a boundary (R182) -/

/-- What the ring closure of a lane speaks of (R182). -/
def LaneRec.closure (x : LaneRec) : Bool × Nat × Bool × Nat × Option Sending :=
  (x.returned, x.misses, x.closed, x.roundTrip, x.sending)

theorem State.placeOwn_closure (f : Frame) (m : Lane) (s : State) (l : Lane) :
    ((s.placeOwn f m).lane l).closure = (s.lane l).closure := by
  have h : ∀ g : LaneRec → LaneRec, (∀ x, (g x).closure = x.closure) → ((s.onLane m g).lane l).closure = (s.lane l).closure := by
    intro g hg
    rcases eq_or_ne l m with rfl | hne
    · rw [State.onLane_lane, hg]
    · rw [State.onLane_lane_other s m l g hne]
  simp only [State.placeOwn]
  split
  · rfl
  · split
    · exact Eq.trans rfl (h (fun x => { x with queue := _ }) fun _ => rfl)
    · exact h (fun x => { x with queue := _ }) fun _ => rfl

theorem State.buildFrame_closure (s : State) (l : Lane) : (s.buildFrame.lane l).closure = (s.lane l).closure := by
  unfold State.buildFrame
  split
  · exact (State.placeOwn_closure _ _ _ l).trans (State.placeOwn_closure _ _ _ l)
  · rfl

theorem State.post_lane (k : EventKind) (a b : Word) (s : State) (l : Lane) : (s.post k a b).lane l = s.lane l :=
  State.lane_of_ring (State.depot_eq_iff.mp (s.post_depot k a b)).2 l

/-- A lane opened, with its count of boundaries without a return (R182). -/
def State.openLane (l : Lane) (n : Nat) (s : State) : State :=
  ((s.onLane l fun y => { y with misses := n }).onLane l fun y => { y with closed := false }).bring (.ringOpen l)

theorem State.openLane_lane (n : Nat) (s : State) : (s.openLane l n).lane l = { s.lane l with misses := n, closed := false } :=
  (State.onLane_lane (s.onLane l fun y => { y with misses := n }) l fun y => { y with closed := false }).trans
    (congrArg (fun y : LaneRec => { y with closed := false }) (State.onLane_lane s l fun y => { y with misses := n }))

theorem State.openLane_other {m : Lane} (h : l ≠ m) (n : Nat) (s : State) : (s.openLane m n).lane l = s.lane l :=
  (State.onLane_lane_other (s.onLane m fun y => { y with misses := n }) m l (fun y => { y with closed := false }) h).trans
    (State.onLane_lane_other s m l (fun y => { y with misses := n }) h)

theorem State.examineLane_other {m : Lane} (h : l ≠ m) (s : State) : (s.examineLane m).lane l = s.lane l := by
  simp only [State.examineLane]
  split
  · exact State.onLane_lane_other _ _ _ _ h
  · split
    · exact (State.post_lane _ _ _ _ l).trans (State.openLane_other h _ s)
    · exact State.onLane_lane_other _ _ _ _ h

section
variable (hr : (s.lane l).returned = false) (hm : 3 ≤ (s.lane l).misses)
include hr hm

/-- The examination at the fourth boundary without a return (R182). -/
theorem State.examineLane_fourth : s.examineLane l =
    if (s.lane l).closed = true then (s.openLane l 4).post .ringOpen (word l.code) (word (s.lane l).returnedSeq.toNat)
    else s.onLane l fun y => { y with misses := 4 } := by
  have hn : min 4 ((s.lane l).misses + 1) = 4 := by omega
  simp only [State.examineLane]
  rw [hn, if_neg (by rw [hr]; exact Bool.false_ne_true)]
  simp only [true_and]
  rfl

theorem State.examineLane_lane : (s.examineLane l).lane l = { s.lane l with misses := 4, closed := false } := by
  rw [State.examineLane_fourth hr hm]
  split
  · exact (State.post_lane _ _ _ _ l).trans (s.openLane_lane 4)
  · rename_i hc
    rw [State.onLane_lane, ← Bool.eq_false_iff.mpr hc]

theorem State.examineLane_brought (hc : (s.lane l).closed = true) :
    Happening.ringOpen l ∈ (s.examineLane l).scratch.brought := by
  rw [State.examineLane_fourth hr hm, if_pos hc, (State.post_aside _ _ _ _).scratch]
  exact List.mem_cons_self

end

/-- A lane at its fourth boundary without a return, of record `x`, ahead of the examination or behind it (R182). -/
structure LaneRow (l : Lane) (x : LaneRec) (t : State) : Prop where
  online : t.run.state ≠ .offline
  returned : (t.lane l).returned = false
  roundTrip : (t.lane l).roundTrip = x.roundTrip
  sending : (t.lane l).sending = x.sending
  misses : 3 ≤ (t.lane l).misses
  opened : (t.lane l).closed = false → (t.lane l).misses = 4 ∧ Happening.ringOpen l ∈ t.scratch.brought

variable {x : LaneRec} {A : Order → Prop}

theorem LaneRow.of_closure (h : LaneRow l x t) (hm : Moves A t u) (hc : (u.lane l).closure = (t.lane l).closure) :
    LaneRow l x u := by
  simp only [LaneRec.closure, Prod.mk.injEq] at hc
  obtain ⟨h1, h2, h3, h4, h5⟩ := hc
  exact ⟨fun e => h.online (hm.offline_iff.mp e), h1.trans h.returned, h4.trans h.roundTrip, h5.trans h.sending,
    h2.symm ▸ h.misses, fun e => ⟨h2.trans (h.opened (h3.symm.trans e)).1, hm.keeps_brought (h.opened (h3.symm.trans e)).2⟩⟩

/-- The examination opens the lane (R182). -/
theorem LaneRow.examine (h : LaneRow l x t) : LaneRow l x (t.examineLane l) ∧ ((t.examineLane l).lane l).closed = false := by
  have hl := State.examineLane_lane h.returned h.misses
  have hm := t.examineLane_moves (A := noOrder) l
  refine ⟨⟨fun e => h.online (hm.offline_iff.mp e), ?_, ?_, ?_, ?_, fun _ => ⟨?_, ?_⟩⟩, ?_⟩
  · rw [hl]; exact h.returned
  · rw [hl]; exact h.roundTrip
  · rw [hl]; exact h.sending
  · rw [hl]; exact Nat.le_succ 3
  · rw [hl]
  · cases hc : (t.lane l).closed with
    | true => exact State.examineLane_brought h.returned h.misses hc
    | false => exact hm.keeps_brought (h.opened hc).2
  · rw [hl]

theorem LaneRow.examine_other (h : LaneRow l x t) {m : Lane} (hm : l ≠ m) : LaneRow l x (t.examineLane m) :=
  h.of_closure (t.examineLane_moves (A := noOrder) m) (congrArg LaneRec.closure (State.examineLane_other hm t))

/-- The examination of both lanes opens the lane (R182). -/
theorem LaneRow.examineLanes (h : LaneRow l x t) : LaneRow l x t.examineLanes ∧ (t.examineLanes.lane l).closed = false := by
  have ho : t.online = true := by
    unfold State.online
    exact bne_iff_ne.mpr h.online
  unfold State.examineLanes
  rw [if_pos ho]
  cases l with
  | a =>
    obtain ⟨h1, h2⟩ := h.examine
    exact ⟨h1.examine_other (by decide), by rw [State.examineLane_other (by decide)]; exact h2⟩
  | b => exact (h.examine_other (m := .a) (by decide)).examine

/-- An act of the boundary leaves the lane as it is, or opens it (R182). -/
theorem LaneRow.act (h : LaneRow l x t) (a : BoundaryAction) : LaneRow l x (t.act a) := by
  by_cases ha : a = .ringClosure
  · subst ha; exact h.examineLanes.1
  · refine h.of_closure (t.act_moves a) ?_
    by_cases hb : a = .frameBuild
    · subst hb; exact t.buildFrame_closure l
    · exact congrArg LaneRec.closure (State.lane_of_ring (t.act_rewinds ha hb).keeps_ring l)

/-- Once open the lane stays open. -/
theorem LaneRow.act_closed (h : LaneRow l x t) (a : BoundaryAction) (hc : (t.lane l).closed = false) :
    ((t.act a).lane l).closed = false := by
  by_cases ha : a = .ringClosure
  · subst ha; exact h.examineLanes.2
  · have hk : ((t.act a).lane l).closure = (t.lane l).closure := by
      by_cases hb : a = .frameBuild
      · subst hb; exact t.buildFrame_closure l
      · exact congrArg LaneRec.closure (State.lane_of_ring (t.act_rewinds ha hb).keeps_ring l)
    exact (congrArg (fun c => c.2.2.1) hk).trans hc

/-- The fourth boundary without a return opens a closed lane (R182). -/
theorem State.boundary_laneRow (first : List BoundaryAction) (ho : s.run.state ≠ .offline) (hr : (s.lane l).returned = false)
    (hm : 3 ≤ (s.lane l).misses) (hc : (s.lane l).closed = true) :
    LaneRow l (s.lane l) (s.boundary first) ∧ ((s.boundary first).lane l).closed = false := by
  have h0 : LaneRow l (s.lane l) s.opened := by
    obtain ⟨_, _, _, _, _, _, _, _, e⟩ := s.opened_frame
    have hl : s.opened.lane l = s.lane l := by rw [e]; cases l <;> rfl
    refine ⟨?_, ?_, ?_, ?_, ?_, ?_⟩
    · rw [e]; exact ho
    all_goals rw [hl]
    · exact hr
    · exact hm
    · exact fun g => absurd (hc.symm.trans g) Bool.noConfusion
  exact ⟨List.foldlRecOn (motive := fun t : State => LaneRow l (s.lane l) t) _ _ h0 fun _ g a _ => g.act a,
    foldl_reaches (P := LaneRow l (s.lane l)) (Q := fun t : State => (t.lane l).closed = false) (fun _ a g => g.act a)
      (fun _ a g => g.act_closed a) (a := .ringClosure) (fun _ g => g.examineLanes.2) (mem_boundaryOrder first .ringClosure) h0⟩

/-! ### The marker line through the acts of a boundary (R51) -/

/-- The marker line with its pulse count (R51). -/
def State.line (s : State) : Bool × Nat := (s.sched.mark, s.sched.pulse)

theorem State.line_of_stock (h : t.stock = s.stock) : t.line = s.line :=
  congrArg (fun c : Words × Option Chunk × Sched => (c.2.2.mark, c.2.2.pulse)) h

theorem Rewind.keeps_line (h : Rewind s t) : t.line = s.line := by
  cases h with
  | still h => exact State.line_of_stock (State.depot_eq_iff.mp h).1
  | hold => rfl
  | rewind =>
    have hf : ∀ u : State, u.flush.line = u.line := fun u => by
      obtain ⟨b, e⟩ := u.flush_sched
      unfold State.line
      rw [e]
    unfold State.rewind
    split
    · exact hf _
    · exact hf _

theorem Rewinds.keeps_line (h : Rewinds s t) : t.line = s.line :=
  h.keeps (P := fun u => u.line = s.line) (fun m e => m.keeps_line.trans e) rfl

theorem State.act_line (a : BoundaryAction) (s : State) : (s.act a).line = s.line := by
  by_cases h : a = .ringClosure
  · subst h; exact State.line_of_stock s.examineLanes_stock
  · by_cases h' : a = .frameBuild
    · subst h'; exact State.line_of_stock s.buildFrame_stock
    · exact (s.act_rewinds h h').keeps_line

/-- The pulse count falls by one, and with its end the line (R51). -/
theorem State.countPulse_line (s : State) :
    s.countPulse.line = (if s.sched.pulse = 1 then false else s.sched.mark, s.sched.pulse - 1) := by
  unfold State.countPulse
  by_cases h0 : s.sched.pulse = 0
  · rw [if_pos h0, if_neg (by omega)]
    exact Prod.ext rfl (by show s.sched.pulse = _; omega)
  · rw [if_neg h0]
    by_cases h1 : s.sched.pulse = 1
    · rw [if_pos h1, if_pos h1, h1]; rfl
    · rw [if_neg h1, if_neg h1]; rfl

theorem State.boundary_line (first : List BoundaryAction) (s : State) :
    (s.boundary first).line = (if s.sched.pulse = 1 then false else s.sched.mark, s.sched.pulse - 1) := by
  have h : s.openCycle.latchFeedback.sched = s.sched :=
    congrArg (fun c : Words × Option Chunk × Sched => c.2.2) (State.depot_eq_iff.mp s.openCycle.latchFeedback_depot).1
  refine (foldl_keeps State.line _ (fun t a => t.act_line a) _ _).trans ?_
  rw [State.countPulse_line, h]

/-- The end of the pulse comes about in its boundary (R51). -/
theorem State.boundary_pulseEnd (first : List BoundaryAction) (hp : s.sched.pulse = 1) :
    Happening.pulseEnd ∈ (s.boundary first).scratch.brought := by
  have h : s.openCycle.latchFeedback.sched = s.sched :=
    congrArg (fun c : Words × Option Chunk × Sched => c.2.2) (State.depot_eq_iff.mp s.openCycle.latchFeedback_depot).1
  have h0 : Happening.pulseEnd ∈ s.opened.scratch.brought := by
    unfold State.opened State.countPulse
    rw [h, if_neg (by omega), if_pos hp]
    exact List.mem_cons_self
  exact List.foldlRecOn (motive := fun t : State => Happening.pulseEnd ∈ t.scratch.brought) _ _ h0
    fun t g a _ => (t.act_moves a).keeps_brought g

/-- Settles O12: the lane through the examination wherever it stands among the acts, the pulse count ahead of them all. -/
theorem laneOpensAndPulseEnds : Obligations.LaneOpensAndPulseEnds := by
  refine ⟨fun s first l hc ho hr hm hcl => ?_, fun s first hc hm => ?_⟩
  · obtain ⟨u, hu⟩ : ∃ u, u = (s.settle.instant []).settle := ⟨_, rfl⟩
    have hl : u.lane l = s.lane l := by rw [hu]; exact s.settle.instant_lane [] l
    have hon : u.run.state ≠ .offline := by rw [hu]; exact fun e => ho ((s.settle.instant_offline []).mp e)
    obtain ⟨h, hopen⟩ := State.boundary_laneRow first hon (hl.symm ▸ hr) (hl.symm ▸ hm) (hl.symm ▸ hcl)
    rw [hl] at h
    have he : s.settle.endCycle first = u.boundary first := by rw [hu]; rfl
    obtain ⟨h4, hb⟩ := h.opened hopen
    refine ⟨(u.boundary first).settle, ?_, ?_, hopen, h4, h.returned, h.roundTrip, h.sending⟩
    · show Host.Outcome.next (s.whileRunning _) = _
      rw [State.whileRunning_eq hc, State.bringing, he, if_pos hb]
    · show Host.Outcome.next (s.whileRunning _) = _
      rw [State.whileRunning_eq hc, he]
  · have h := s.settle.boundary_line first
    refine ⟨_, State.boundary_exec hc hm first, congrArg Prod.snd h, congrArg Prod.fst h, fun hp => ?_⟩
    exact congrArg Host.Outcome.next (State.bringing_boundary hc hm (State.boundary_pulseEnd (s := s.settle) first hp))

end Sys2Proof.Machine

namespace Sys2Proof.Machine

variable {s t u : State} {q : StopRequest}

/-! ### The reports of an instant in play, but that of the markers -/

/-- What the order unit and the counter of its originations hold (R98, R102). -/
def State.booking (s : State) : Orders × Nat := (s.orders, s.counter .ordersOriginated)

/-- The node is in its STOP descent (R24). -/
def State.halted (s : State) : Prop := s.run.state = .stopping ∧ s.drive.runRamp = some .descent

/-- What a report of an instant in play leaves, when it is not that of the markers: schedule unit, orders, and a node once halted
stays so. -/
structure Plain (s t : State) : Prop where
  play : t.inPlay
  stepped : t.scratch.stepped = none
  sched : t.sched = s.sched
  booking : t.booking = s.booking
  halted : s.halted → t.halted
  stoppable : s.run.state.stoppable → t.run.state.stoppable ∨ t.halted

theorem Plain.trans (h : Plain s t) (g : Plain t u) : Plain s u where
  play := g.play
  stepped := g.stepped
  sched := g.sched.trans h.sched
  booking := g.booking.trans h.booking
  halted e := g.halted (h.halted e)
  stoppable e := (h.stoppable e).elim g.stoppable fun k => .inr (g.halted k)

theorem State.request_counter_originated (hq : q.cause.isT = false) (hs : s.inPlay) (hx : s.scratch.stepped = none) :
    (s.request q).counter .ordersOriginated = s.counter .ordersOriginated := by
  rcases hs with h | h
  · rw [State.request_begins hq h]
    have hf : (s.stopBegun q).installDescent.firstStep = (s.stopBegun q).installDescent := by
      rw [State.firstStep, if_neg (by simp [State.installDescent, (s.stopBegun_aside q).scratch, hx])]
    rw [hf]
    have h1 : (s.countFurther.taken q).counter .ordersOriginated = s.counter .ordersOriginated :=
      (State.post_counter _ _ _ _ (by decide)).trans (State.count_counter_other _ _ _ 1 (by decide))
    exact (State.post_counter (((s.countFurther.taken q).latch q).setStopField q) _ _ _ (by decide)).trans h1
  · rw [State.request_counted hq (.inl h)]
    exact State.count_counter_other _ _ _ 1 (by decide)

section
variable (hs : s.inPlay) (hx : s.scratch.stepped = none)
include hs hx

theorem Plain.refl : Plain s s := ⟨hs, hx, rfl, rfl, id, .inl⟩

theorem State.post_plain (k : EventKind) (a b : Word) : Plain s (s.post k a b) := by
  have ha := s.post_aside k a b
  have hr : (s.post k a b).run = s.run := by simp
  refine ⟨?_, by rw [ha.scratch]; exact hx, ha.sched, ?_, fun h => ?_, fun h => .inl ?_⟩
  · unfold State.inPlay; rw [hr]; exact hs
  · exact Prod.ext ha.orders (s.post_counter k a b (by decide))
  · unfold State.halted; rw [hr, ha.drive]; exact h
  · rw [hr]; exact h

theorem State.bring_plain (x : Happening) : Plain s (s.bring x) := ⟨hs, hx, rfl, rfl, id, .inl⟩

/-- A class S request halts a node in RUN, PAUSING or PAUSED, and is counted in STOPPING (R82, R83). -/
theorem State.request_plain (hq : q.cause.isT = false) : Plain s (s.request q) := by
  have hc := State.request_counter_originated hq hs hx
  rcases hs with h | h
  · obtain ⟨h1, -, h2, h3, h4, h5, -⟩ := State.stopped_of_rest hq h hx
    have hh : (s.request q).halted := ⟨h1, by rw [h2]⟩
    exact ⟨.inr h1, by rw [h5]; exact hx, h3, Prod.ext h4 hc, fun _ => hh, fun _ => .inr hh⟩
  · obtain ⟨ha, hr, -⟩ := State.counted hq (.inl h)
    refine ⟨.inr (hr.trans h), by rw [ha.scratch]; exact hx, ha.sched, Prod.ext ha.orders hc, fun g => ?_, fun g => .inl ?_⟩
    · unfold State.halted; rw [hr, ha.drive]; exact g
    · rw [hr]; exact g

theorem State.report_plain (f : InstantFacts) {r : InstantReport} (h : r ≠ .markers) : Plain s (s.report f r) := by
  cases r with
  | coupling =>
    simp only [State.report]
    split
    · exact .refl hs hx
    · exact State.post_plain hs hx _ _ _
  | segment =>
    simp only [State.report]
    split
    · exact .refl hs hx
    · split
      · exact .refl hs hx
      · have hp := fun a b => State.post_plain hs hx .segmentDone a b
        split
        · exact (hp _ _).trans (State.request_plain (hp _ _).play (hp _ _).stepped rfl)
        · exact hp _ _
  | underrun =>
    simp only [State.report]
    split
    · exact .refl hs hx
    · split
      · exact State.request_plain hs hx rfl
      · exact .refl hs hx
  | markers => exact absurd rfl h
  | late j =>
    simp only [State.report]
    split
    · have hb := State.bring_plain hs hx (.peerLate j)
      exact hb.trans (State.request_plain hb.play hb.stepped rfl)
    · exact .refl hs hx

theorem State.reports_plain (f : InstantFacts) {l : List InstantReport} (h : .markers ∉ l) :
    Plain s (l.foldl (State.report f) s) :=
  List.foldlRecOn (motive := fun t : State => Plain s t) l _ (.refl hs hx)
    fun _ ht _ hr => ht.trans (State.report_plain ht.play ht.stepped f fun e => h (e ▸ hr))

end

/-! ### The marker unit beside the others (R50 to R52, R103) -/

/-- What the marker unit leaves: run controller, drive unit and scratch. -/
def State.motion (s : State) : Run × Drive × Scratch := (s.run, s.drive, s.scratch)

theorem State.post_motion (k : EventKind) (a b : Word) (s : State) : (s.post k a b).motion = s.motion := by
  simp [State.motion]

theorem State.runMarker_motion (k : Nat) (m : MarkerSlot) (r : PosRecord) (s : State) :
    (s.runMarker k m r).motion = s.motion := by
  unfold State.runMarker
  split
  · rfl
  · split
    · rfl
    · exact s.post_motion _ _ _
  · rfl

theorem State.evaluateMarkers_motion (r : PosRecord) (s : State) : (s.evaluateMarkers r).motion = s.motion := by
  unfold State.evaluateMarkers
  refine foldl_keeps State.motion _ (fun t x => ?_) _ s
  split
  · exact (State.runMarker_motion _ _ _ _).trans (t.post_motion _ _ _)
  · rfl

theorem State.markersReport_motion (f : InstantFacts) (s : State) : (s.report f .markers).motion = s.motion := by
  simp only [State.report]
  split
  · rfl
  · split
    · exact s.evaluateMarkers_motion _
    · rfl

/-- An instant in play whose node is in RUN, PAUSING or PAUSED, or in its STOP descent. -/
def State.haltable (s : State) : Prop := s.scratch.stepped = none ∧ (s.run.state.stoppable ∨ s.halted)

theorem State.haltable.play (h : s.haltable) : s.inPlay := h.2.imp_right And.left

theorem State.halted_of_motion (h : t.motion = s.motion) (hs : s.halted) : t.halted := by
  simp only [State.motion, Prod.mk.injEq] at h
  obtain ⟨h1, h2, -⟩ := h
  unfold State.halted
  rw [h1, h2]
  exact hs

theorem State.haltable_of_motion (h : t.motion = s.motion) (hs : s.haltable) : t.haltable := by
  refine ⟨?_, hs.2.imp (fun k => ?_) (State.halted_of_motion h)⟩
  · simp only [State.motion, Prod.mk.injEq] at h
    rw [h.2.2]
    exact hs.1
  · simp only [State.motion, Prod.mk.injEq] at h
    rw [h.1]
    exact k

theorem State.haltable.request (h : s.haltable) (hq : q.cause.isT = false) : (s.request q).halted := by
  rcases h.2 with k | k
  · obtain ⟨h1, -, h2, -⟩ := State.stopped_of_rest hq k h.1
    exact ⟨h1, by rw [h2]⟩
  · exact (State.request_plain (.inr k.1) h.1 hq).halted k

theorem State.haltable.report (h : s.haltable) (f : InstantFacts) (r : InstantReport) : (s.report f r).haltable := by
  by_cases hr : r = .markers
  · subst hr; exact State.haltable_of_motion (s.markersReport_motion f) h
  · have hp := State.report_plain h.play h.1 f hr
    exact ⟨hp.stepped, h.2.elim hp.stoppable fun k => .inr (hp.halted k)⟩

theorem State.haltable.report_halted (h : s.haltable) (f : InstantFacts) (r : InstantReport) (hs : s.halted) :
    (s.report f r).halted := by
  by_cases hr : r = .markers
  · subst hr; exact State.halted_of_motion (s.markersReport_motion f) hs
  · exact (State.report_plain h.play h.1 f hr).halted hs

/-- A report that halts the node, wherever it stands among the reports, ends with it halted. -/
theorem State.reports_halted {f : InstantFacts} {r : InstantReport} (hr : ∀ u : State, u.haltable → (u.report f r).halted)
    {l : List InstantReport} (hl : r ∈ l) (h : s.haltable) : (l.foldl (State.report f) s).halted :=
  foldl_reaches (P := State.haltable) (Q := State.halted) (fun _ a g => g.report f a) (fun _ a g => g.report_halted f a) hr hl h

/-- The end of the schedule halts the node (R44). -/
theorem State.haltable.segment {f : InstantFacts} {k : Taken} {tag : Half} (h : s.haltable) (hk : f.taken = some k)
    (ht : k.retired = some tag) (he : k.ended = true) : (s.report f .segment).halted := by
  simp only [State.report, hk, ht, he, if_true]
  exact (State.haltable_of_motion (s.post_motion _ _ _) h).request rfl

/-- An underrun in RUN or PAUSING halts the node (R45). -/
theorem State.haltable.underrun {f : InstantFacts} {k : Taken} (h : s.haltable) (hk : f.taken = some k)
    (hn : k.sample = none) (hf : f.state = .run ∨ f.state = .pausing) : (s.report f .underrun).halted := by
  have hb : (k.sample.isNone && (f.state == .run || f.state == .pausing)) = true := by
    rcases hf with e | e <;> rw [hn, e] <;> rfl
  simp only [State.report, hk]
  rw [if_pos hb]
  exact h.request rfl

/-! ### The marker slots (R50, R51, R103) -/

variable {r : PosRecord}

/-- One slot evaluated (R50). -/
def State.slotStep (r : PosRecord) (t : State) (x : Nat × MarkerSlot) : State :=
  if x.2.hits r then State.runMarker x.1 x.2 r (t.post .marker (word x.1) r.detail) else t

theorem State.evaluateMarkers_eq (r : PosRecord) (s : State) :
    s.evaluateMarkers r = s.items.slots.foldl (State.slotStep r) s := rfl

theorem State.slotStep_quiet (r : PosRecord) (s : State) (x : Nat × MarkerSlot) : (s.slotStep r x).quiet = s.quiet := by
  unfold State.slotStep
  split
  · exact (State.runMarker_quiet _ _ _ _).trans (State.post_quiet _ _ _ _)
  · rfl

/-- The marker line asserted with its pulse count (R51). -/
def Sched.pulsed (n : Nat) (c : Sched) : Sched := { c with mark := true, pulse := n }

theorem State.runMarker_sched (k : Nat) (m : MarkerSlot) (s : State) : (s.runMarker k m r).sched =
    if m.action = .pulse then s.sched.pulsed s.items.pulseCycles else s.sched := by
  unfold State.runMarker
  cases m.action with
  | pulse => rfl
  | pause =>
    dsimp only
    split
    · rfl
    · exact (s.post_aside _ _ _).sched
  | note => rfl

/-- A matching PULSE slot asserts the line; any other leaves the schedule unit (R51). -/
theorem State.slotStep_sched (x : Nat × MarkerSlot) (s : State) : (s.slotStep r x).sched =
    if x.2.hits r = true ∧ x.2.action = .pulse then s.sched.pulsed s.items.pulseCycles else s.sched := by
  have ha := s.post_aside .marker (word x.1) r.detail
  unfold State.slotStep
  by_cases hh : x.2.hits r = true
  · rw [if_pos hh, State.runMarker_sched, State.items, ha.sched, ha.items]
    exact if_congr (by simp only [hh, true_and]) rfl rfl
  · rw [if_neg hh, if_neg fun e => hh e.1]

theorem State.slots_unpulsed {l : List (Nat × MarkerSlot)} (h : ∀ m ∈ l.map Prod.snd, m.hits r = true → m.action ≠ .pulse)
    (s : State) : (l.foldl (State.slotStep r) s).sched = s.sched := by
  induction l generalizing s with
  | nil => rfl
  | cons x l ih =>
    rw [List.map_cons, List.forall_mem_cons] at h
    exact (ih h.2 _).trans ((State.slotStep_sched x s).trans (if_neg fun e => h.1 e.1 e.2))

theorem State.slots_pulsed {l : List (Nat × MarkerSlot)} (h : ∃ m ∈ l.map Prod.snd, m.hits r = true ∧ m.action = .pulse)
    (s : State) : (l.foldl (State.slotStep r) s).sched = s.sched.pulsed s.items.pulseCycles := by
  induction l generalizing s with
  | nil =>
    obtain ⟨m, hm, -⟩ := h
    exact absurd hm List.not_mem_nil
  | cons x l ih =>
    have hi : (s.slotStep r x).items = s.items := State.items_of_steady (State.steady_of_quiet (s.slotStep_quiet r x))
    have hx := State.slotStep_sched (r := r) x s
    show (l.foldl (State.slotStep r) (s.slotStep r x)).sched = _
    by_cases hl : ∃ m ∈ l.map Prod.snd, m.hits r = true ∧ m.action = .pulse
    · rw [ih hl, hi, hx]
      split <;> rfl
    · have hx1 : x.2.hits r = true ∧ x.2.action = .pulse := by
        obtain ⟨m, hm, hmr⟩ := h
        rcases List.mem_cons.mp hm with rfl | hm
        · exact hmr
        · exact absurd ⟨m, hm, hmr⟩ hl
      rw [State.slots_unpulsed (fun m hm h1 h2 => hl ⟨m, hm, h1, h2⟩), hx, if_pos hx1]

/-- The booking of a marker's PAUSE order (R102, R103). -/
def State.pauseBooked (s : State) : Orders × Nat :=
  ({ s.orders with
      pending := insertOrder (s.newOrder .pause s.items.pauseLength 0) s.orders.pending
      highest := s.orders.highest + 1
      carried := some (s.orders.highest + 1) }, saturate32 (s.counter .ordersOriginated) 1)

theorem State.mayOriginate_of_booking (h : t.booking = s.booking) : t.mayOriginate = s.mayOriginate := by
  simp only [State.booking, Prod.mk.injEq] at h
  unfold State.mayOriginate
  rw [h.1]

theorem State.pauseBooked_of (h : t.booking = s.booking) (hq : t.quiet = s.quiet) : t.pauseBooked = s.pauseBooked := by
  have hi : t.port.items = s.port.items := State.items_of_steady (State.steady_of_quiet hq)
  simp only [State.booking, Prod.mk.injEq] at h
  unfold State.pauseBooked State.newOrder State.ownNumber State.items
  rw [h.1, h.2, hi, State.cycle_of_quiet hq]

theorem State.originate_booking (s : State) : (s.originate .pause s.items.pauseLength 0).booking = s.pauseBooked :=
  Prod.ext rfl (State.bump_counter _ _)

theorem State.post_booking (k : EventKind) (a b : Word) (s : State) : (s.post k a b).booking = s.booking :=
  Prod.ext (s.post_aside k a b).orders (s.post_counter k a b (by decide))

theorem State.runMarker_booking (k : Nat) (m : MarkerSlot) (s : State) : (s.runMarker k m r).booking =
    if m.action = .pause ∧ s.mayOriginate = true then s.pauseBooked else s.booking := by
  unfold State.runMarker
  cases m.action with
  | pulse => rfl
  | pause =>
    dsimp only
    split
    · rename_i ho
      rw [if_pos ⟨rfl, ho⟩, State.originate_booking]
    · rename_i ho
      rw [if_neg fun e => ho e.2]
      exact s.post_booking _ _ _
  | note => rfl

/-- A matching PAUSE slot books its order where the order unit can originate; any other books nothing (R102, R103). -/
theorem State.slotStep_booking (x : Nat × MarkerSlot) (s : State) : (s.slotStep r x).booking =
    if x.2.hits r = true ∧ x.2.action = .pause ∧ s.mayOriginate = true then s.pauseBooked else s.booking := by
  have hb := s.post_booking .marker (word x.1) r.detail
  unfold State.slotStep
  by_cases hh : x.2.hits r = true
  · rw [if_pos hh, State.runMarker_booking, State.mayOriginate_of_booking hb, hb, State.pauseBooked_of hb (s.post_quiet _ _ _)]
    exact if_congr (by simp only [hh, true_and]) rfl rfl
  · rw [if_neg hh, if_neg fun e => hh e.1]

theorem State.slots_unbooked {l : List (Nat × MarkerSlot)}
    (h : (∀ m ∈ l.map Prod.snd, m.hits r = true → m.action ≠ .pause) ∨ s.mayOriginate = false) :
    (l.foldl (State.slotStep r) s).booking = s.booking := by
  induction l generalizing s with
  | nil => rfl
  | cons x l ih =>
    have hx : (s.slotStep r x).booking = s.booking := by
      refine (State.slotStep_booking x s).trans (if_neg fun ⟨h1, h2, h3⟩ => ?_)
      rcases h with h | h
      · exact h x.2 (List.mem_cons_self) h1 h2
      · exact Bool.false_ne_true (h.symm.trans h3)
    refine (ih ?_).trans hx
    refine h.imp (fun h m hm => h m (List.mem_cons_of_mem _ hm)) fun h => ?_
    rw [State.mayOriginate_of_booking hx, h]

theorem State.slots_booked {l : List (Nat × MarkerSlot)} (h : ∃ m ∈ l.map Prod.snd, m.hits r = true ∧ m.action = .pause)
    (hs : s.mayOriginate = true) : (l.foldl (State.slotStep r) s).booking = s.pauseBooked := by
  induction l generalizing s with
  | nil =>
    obtain ⟨m, hm, -⟩ := h
    exact absurd hm List.not_mem_nil
  | cons x l ih =>
    have hx := State.slotStep_booking (r := r) x s
    show (l.foldl (State.slotStep r) (s.slotStep r x)).booking = _
    by_cases hp : x.2.hits r = true ∧ x.2.action = .pause
    · rw [if_pos ⟨hp.1, hp.2, hs⟩] at hx
      have hc : (s.slotStep r x).mayOriginate = false := by
        have ho : (s.slotStep r x).orders = s.pauseBooked.1 := congrArg Prod.fst hx
        unfold State.mayOriginate
        rw [ho]
        rfl
      exact (State.slots_unbooked (.inr hc)).trans hx
    · rw [if_neg fun e => hp ⟨e.1, e.2.1⟩] at hx
      have hl : ∃ m ∈ l.map Prod.snd, m.hits r = true ∧ m.action = .pause := by
        obtain ⟨m, hm, hmr⟩ := h
        rcases List.mem_cons.mp hm with rfl | hm
        · exact absurd hmr hp
        · exact ⟨m, hm, hmr⟩
      rw [ih hl ((State.mayOriginate_of_booking hx).trans hs)]
      exact State.pauseBooked_of hx (s.slotStep_quiet r x)

end Sys2Proof.Machine

namespace Sys2Proof.Machine

variable {s t u : State} {r : PosRecord}

/-! ### The marker evaluation as a whole (R50 to R52, R103) -/

/-- The slots of a configuration, in slot order (R50). -/
theorem Items.slots_map (c : Items) : c.slots.map Prod.snd = [c.slot0, c.slot1, c.slot2, c.slot3] := rfl

/-- A masked comparison by its bits (R50). -/
theorem masked_eq_iff (x key mask : Half) : (x ^^^ key) &&& ~~~mask = 0 ↔
    ∀ i, i < 16 → mask.getLsbD i = false → x.getLsbD i = key.getLsbD i := by
  constructor
  · intro h i hi hm
    have hb := congrArg (fun b : Half => b.getLsbD i) h
    simp only [BitVec.getLsbD_and, BitVec.getLsbD_xor, BitVec.getLsbD_not, hi, hm, decide_true, Bool.not_false,
      Bool.and_true] at hb
    exact bne_eq_false_iff_eq.mp (hb.trans BitVec.getLsbD_zero)
  · intro h
    refine BitVec.eq_of_getLsbD_eq fun i hi => ?_
    have hb := h i hi
    cases hm : mask.getLsbD i with
    | true => simp [hm]
    | false => simp [hm, hb hm]

/-- A slot matches where the unmasked bits of tag and repeat agree with its key (R50). -/
theorem MarkerSlot.hits_iff (m : MarkerSlot) (r : PosRecord) : m.hits r = true ↔ m.enable = true ∧
    (∀ i, i < 16 → m.tagMask.getLsbD i = false → r.tag.getLsbD i = m.keyTag.getLsbD i) ∧
    (∀ i, i < 16 → m.repeatMask.getLsbD i = false → r.rep.getLsbD i = m.keyRepeat.getLsbD i) := by
  rw [← masked_eq_iff, ← masked_eq_iff]
  simp only [MarkerSlot.hits, Bool.and_eq_true, beq_iff_eq, and_assoc]

/-- An event posted while there is room (R204). -/
theorem State.post_appended (k : EventKind) (a b : Word) (h : s.port.events.length < 32) :
    (s.post k a b).port.events = s.port.events ++ [⟨k, s.time.cycle, a, b⟩] := by
  unfold State.post
  rw [if_pos h]

theorem State.originate_events (a b : Nat) (s : State) : (s.originate .pause a b).port.events = s.port.events := rfl

/-- A single matching slot leaves its event, and that of a PAUSE that finds no place (R50, R52). -/
theorem State.slotStep_events {k : Nat} {m : MarkerSlot} (h : s.port.events.length ≤ 30) {v : Event}
    (hv : v = { kind := .marker, cycle := s.time.cycle, detail1 := word k, detail2 := r.detail }) :
    ((s.post .marker (word k) r.detail).runMarker k m r).port.events = s.port.events ++
      (if m.action = .pause ∧ (s.orders.carried ≠ none ∨ 4 ≤ s.orders.pending.length) then
        [v, { v with kind := .markerPauseDropped }] else [v]) := by
  obtain ⟨p, hp⟩ : ∃ p, p = s.post .marker (word k) r.detail := ⟨_, rfl⟩
  have he : p.port.events = s.port.events ++ [v] := by rw [hp, hv]; exact State.post_appended _ _ _ (by omega)
  have ha : s.Aside p := hp ▸ s.post_aside _ _ _
  have ho : p.mayOriginate = true ↔ ¬(s.orders.carried ≠ none ∨ 4 ≤ s.orders.pending.length) := by
    simp [State.mayOriginate, ha.orders]
  rw [← hp]
  unfold State.runMarker
  cases m.action with
  | pulse => exact he
  | pause =>
    dsimp only
    split
    · rename_i hm
      rw [if_neg fun e => ho.mp hm e.2]
      exact (State.originate_events _ _ p).trans he
    · rename_i hm
      rw [if_pos ⟨rfl, not_not.mp fun e => hm (ho.mpr e)⟩,
        State.post_appended _ _ _ (by rw [he, List.length_append, List.length_singleton]; omega), he, ha.time, hv,
        List.append_assoc]
      rfl
  | note => exact he

/-- The evaluation is that of the matching slots (R50). -/
theorem State.evaluateMarkers_hits (r : PosRecord) (s : State) : s.evaluateMarkers r =
    (s.items.slots.filter fun x => x.2.hits r).foldl
      (fun t x => State.runMarker x.1 x.2 r (t.post .marker (word x.1) r.detail)) s := by
  rw [List.foldl_filter]
  rfl

/-! ### One position consumed (R43, R44) -/

/-- What a consumption hands on of position and entry (R43, R44). -/
theorem Sched.consume_taken {c : Sched} {e : Entry} {rest : List Entry} {p : HeadPos} (hq : c.queue = e :: rest)
    (hp : c.head = some p) : ∃ k, c.consume.2 = some k ∧ k.sample = c.fifo.head? ∧ k.offset = p.offset ∧
      k.record = { tag := BitVec.ofNat 16 e.tag, rep := BitVec.ofNat 16 p.rep } ∧
      k.retired = (if lastPosition e p then some (BitVec.ofNat 16 e.tag) else none) ∧
      k.ended = (lastPosition e p && rest.isEmpty) := by
  unfold Sched.consume
  rw [hq, hp]
  exact ⟨_, rfl, rfl, rfl, rfl, rfl, rfl⟩

section
variable {c : Sched} {e : Entry} {rest : List Entry} {p : HeadPos} (hq : c.queue = e :: rest) (hp : c.head = some p)
include hq hp

/-- The records, the indices, the FIFO and the debt after a consumption (R42 to R45); the marker line stands. -/
theorem Sched.consume_fields : c.consume.1.replay = c.next ∧ c.consume.1.next = c.next + 1 ∧
    c.consume.1.current = some { tag := BitVec.ofNat 16 e.tag, rep := BitVec.ofNat 16 p.rep } ∧
    c.consume.1.previous = c.current ∧ c.consume.1.fifo = c.fifo.tail ∧
    c.consume.1.debt = (if c.fifo = [] then min 4294967295 (c.debt + 1) else c.debt) ∧
    c.consume.1.mark = c.mark ∧ c.consume.1.pulse = c.pulse := by
  have hd : (if c.fifo.isEmpty then saturate32 c.debt 1 else c.debt) =
      if c.fifo = [] then min 4294967295 (c.debt + 1) else c.debt :=
    if_congr List.isEmpty_iff rfl rfl
  rw [Sched.consume_fst hq hp, hd]
  obtain ⟨x, y, h⟩ := Sched.advance_frame { c with
    previous := c.current
    current := some { tag := BitVec.ofNat 16 e.tag, rep := BitVec.ofNat 16 p.rep }
    replay := c.next
    fifo := c.fifo.tail
    debt := if c.fifo = [] then min 4294967295 (c.debt + 1) else c.debt } e rest p (c.next + 1)
  rw [h]
  exact ⟨rfl, rfl, rfl, rfl, rfl, rfl, rfl, rfl⟩

/-- Within the repeat the offset moves on (R43). -/
theorem Sched.consume_within (h : p.offset + 1 < e.length) : c.consume.1.queue = e :: rest ∧
    c.consume.1.head = some { p with offset := p.offset + 1 } := by
  rw [Sched.consume_fst hq hp, Sched.advance, if_pos h]
  exact ⟨hq, rfl⟩

/-- At the end of a repeat that is not the last the next one begins (R43). -/
theorem Sched.consume_repeat (h : e.length ≤ p.offset + 1) (hr : p.rep < e.repeats) : c.consume.1.queue = e :: rest ∧
    c.consume.1.head = some { p with rep := p.rep + 1, offset := 0 } := by
  rw [Sched.consume_fst hq hp, Sched.advance, if_neg (Nat.not_lt.mpr h), if_pos hr]
  exact ⟨hq, rfl⟩

/-- At the end of the last repeat the entry retires (R44). -/
theorem Sched.consume_retire (h : e.length ≤ p.offset + 1) (hr : e.repeats ≤ p.rep) : c.consume.1.queue = rest ∧
    c.consume.1.head = (if rest = [] then none else some { rep := 1, offset := 0, start := c.next + 1 }) := by
  rw [Sched.consume_fst hq hp, Sched.advance, if_neg (Nat.not_lt.mpr h), if_neg (Nat.not_lt.mpr hr)]
  exact ⟨rfl, if_congr List.isEmpty_iff rfl rfl⟩

end

/-! ### An instant with a position consumed -/

/-- The computation of an instant raises the clip and slew counters alone. -/
theorem State.instantFacts_counter (h : s.run.state.computes = true) {c : Counter} (h1 : c.place ≠ Counter.clip.place)
    (h2 : c.place ≠ Counter.slew.place) : s.instantFacts.1.counter c = s.consume.1.counter c := by
  obtain ⟨v, hv⟩ := s.instantHeld_frame
  rw [State.instantFacts_of_computes h, State.computeDrive_counter_other _ _ h1 h2, hv]
  show s.instantReady.counter c = _
  rw [State.counter, State.instantReady, State.serve_port]
  rfl

/-- Nor does it touch time or configuration. -/
theorem State.instantFacts_time (s : State) : s.instantFacts.1.time = s.time ∧ s.instantFacts.1.items = s.items := by
  obtain ⟨v, c, x, e⟩ := s.instantReady.driveInstant_frame s.run.state s.consume.2
    (instantIndex s.consume.2 s.instantReady.sched.replay)
  obtain ⟨_, _, _, _, _, e'⟩ := s.instantReady_frame
  rw [State.instantFacts_fst, e, e']
  exact ⟨rfl, rfl⟩

/-- The reader's test at the end of an instant touches the burst and the port alone (R34). -/
theorem State.actInstant_reported (first : List InstantReport) (s : State) :
    (∃ b, (s.actInstant first).sched = { (s.reported first).sched with burst := b }) ∧
    (s.actInstant first).booking = (s.reported first).booking ∧ (s.actInstant first).motion = (s.reported first).motion := by
  rw [State.actInstant_eq]
  split
  · obtain ⟨b, a, e⟩ := (s.reported first).fetch_frame
    rw [e]
    exact ⟨⟨b, rfl⟩, rfl, rfl⟩
  · exact ⟨⟨_, rfl⟩, rfl, rfl⟩

/-- The states that play are those of a stop to come, and STOPPING (R5). -/
theorem RunState.stoppable_of_playing {x : RunState} (h : x.playing = true) (hn : x ≠ .stopping) : x = .run ∨ x = .pausing := by
  cases x with
  | run => exact .inl rfl
  | pausing => exact .inr rfl
  | stopping => exact absurd rfl hn
  | _ => exact absurd h Bool.false_ne_true

section
variable (hr : s.run.state.playing = true) (hx : s.scratch.stepped = none)
include hr

theorem State.computes_of_playing : s.run.state.computes = true :=
  (RunState.coupling_of_inPlay (State.inPlay_of_playing hr)).2

/-- A consumption with a position counts its underrun (R43, R45). -/
theorem State.consume_playing {k : Taken} (hk : s.sched.consume.2 = some k) : s.consume.1 =
    if k.sample.isNone then State.bump .underrun { s with sched := s.sched.consume.1, drive := s.drive.hold (some k) }
    else { s with sched := s.sched.consume.1, drive := s.drive.hold (some k) } := by
  unfold State.consume
  rw [if_pos hr]
  revert hk
  generalize s.sched.consume = c
  obtain ⟨c, y⟩ := c
  rintro ⟨⟩
  rfl

theorem State.consume_sched : s.consume.1.sched = s.sched.consume.1 := by
  have h := congrArg (fun c : (Words × Option Chunk × Sched) × Ring => c.1.2.2) s.consume_depot
  exact h.trans (if_pos hr)

include hx

/-- The marker report of an instant stands alone among the others: it finds the schedule unit as the consumption left it, the orders
as they stood, and what it leaves is what the instant leaves. -/
theorem State.markers_among (first : List InstantReport) : ∃ u : State, u.sched = s.sched.consume.1 ∧ u.booking = s.booking ∧
    u.items = s.items ∧ u.time.cycle = s.time.cycle ∧
    (∃ b, (s.actInstant first).sched = { (u.report s.instantFacts.2 .markers).sched with burst := b }) ∧
    (s.actInstant first).booking = (u.report s.instantFacts.2 .markers).booking := by
  obtain ⟨hrun, hscratch, horders, -, hsched, -, -, -⟩ := s.instantFacts_frame
  obtain ⟨htime, hitems⟩ := s.instantFacts_time
  have hperm := Laws.instant_reports_perm first
  have hmem : .markers ∈ orderedBy first instantReports := hperm.mem_iff.mpr (by decide)
  have hnodup : (orderedBy first instantReports).Nodup := hperm.nodup_iff.mpr (by decide)
  obtain ⟨l1, l2, hl⟩ := List.append_of_mem hmem
  rw [hl, List.nodup_middle] at hnodup
  obtain ⟨hnot, -⟩ := List.nodup_cons.mp hnodup
  rw [List.mem_append, not_or] at hnot
  obtain ⟨hn1, hn2⟩ := hnot
  have hp1 : Plain s.instantFacts.1 (l1.foldl (State.report s.instantFacts.2) s.instantFacts.1) :=
    State.reports_plain (by unfold State.inPlay; rw [hrun]; exact State.inPlay_of_playing hr) (by rw [hscratch]; exact hx) _ hn1
  have hquiet : (l1.foldl (State.report s.instantFacts.2) s.instantFacts.1).quiet = s.instantFacts.1.quiet :=
    foldl_keeps State.quiet _ (fun t r => t.report_quiet _ r) _ _
  have hend : s.reported first = l2.foldl (State.report s.instantFacts.2)
      ((l1.foldl (State.report s.instantFacts.2) s.instantFacts.1).report s.instantFacts.2 .markers) := by
    rw [State.reported, hl, List.foldl_append, List.foldl_cons]
  generalize l1.foldl (State.report s.instantFacts.2) s.instantFacts.1 = u at hp1 hquiet hend
  have hm := u.markersReport_motion s.instantFacts.2
  simp only [State.motion, Prod.mk.injEq] at hm
  obtain ⟨hm1, -, hm3⟩ := hm
  have hp2 : Plain (u.report s.instantFacts.2 .markers) (s.reported first) := by
    rw [hend]
    exact State.reports_plain (by unfold State.inPlay; rw [hm1]; exact hp1.play) (by rw [hm3]; exact hp1.stepped) _ hn2
  obtain ⟨⟨b, hb⟩, hbook, -⟩ := s.actInstant_reported first
  refine ⟨u, ?_, ?_, ?_, ?_, ⟨b, by rw [hb, hp2.sched]⟩, hbook.trans hp2.booking⟩
  · exact hp1.sched.trans (hsched.trans (State.consume_sched hr))
  · refine hp1.booking.trans (Prod.ext horders ?_)
    exact (State.instantFacts_counter (State.computes_of_playing hr) (by decide) (by decide)).trans
      (s.consume_counter (by decide))
  · exact (State.items_of_steady (State.steady_of_quiet hquiet)).trans hitems
  · exact (State.cycle_of_quiet hquiet).trans (congrArg Time.cycle htime)

/-- A report that halts, among the reports of an instant that finds RUN or PAUSING, ends with the node in its STOP descent, R as it
stood (R24, R44, R45). -/
theorem State.instant_halts (hn : s.run.state ≠ .stopping) {r : InstantReport}
    (h : ∀ u : State, u.haltable → (u.report s.instantFacts.2 r).halted) (first : List InstantReport)
    (hm : r ∈ instantReports) : (s.actInstant first).halted := by
  obtain ⟨hrun, hscratch, -⟩ := s.instantFacts_frame
  have h0 : s.instantFacts.1.haltable := by
    refine ⟨by rw [hscratch]; exact hx, .inl ?_⟩
    rw [hrun]
    exact (RunState.stoppable_of_playing hr hn).imp_right .inl
  exact State.halted_of_motion (s.actInstant_reported first).2.2
    (State.reports_halted h ((Laws.instant_reports_perm first).mem_iff.mpr hm) h0)

end

section
variable {e : Entry} {rest : List Entry} {p : HeadPos} (hr : s.run.state.playing = true) (hx : s.scratch.stepped = none)
  (hq : s.sched.queue = e :: rest) (hh : s.sched.head = some p)
include hr hq hh

/-- The marker report at a consumed position: the slots at offset 0 in RUN, and nothing elsewhere (R50; log 31). -/
theorem State.markersReport_eq (u : State) : u.report s.instantFacts.2 .markers =
    if s.run.state = .run ∧ p.offset = 0 then
      u.evaluateMarkers { tag := BitVec.ofNat 16 e.tag, rep := BitVec.ofNat 16 p.rep } else u := by
  obtain ⟨k, hk, -, ho, hrec, -⟩ := Sched.consume_taken hq hh
  have hk' : s.instantFacts.2.taken = some k := (State.consume_snd hr).trans hk
  simp only [State.report, hk', ho, hrec, State.instantFacts_state]

/-- The consumed sample is held, the held one stands on underrun (R6, R45). -/
theorem State.actInstant_held (first : List InstantReport) : (s.actInstant first).drive.held =
    match s.sched.fifo with | [] => s.drive.held | x :: _ => x.toInt := by
  obtain ⟨k, hk, hs, -⟩ := Sched.consume_taken hq hh
  have hk' : s.consume.2 = some k := (State.consume_snd hr).trans hk
  obtain ⟨c, n, he⟩ := s.consume_frame
  have hready : s.instantReady.drive.held = s.consume.1.drive.held := by
    rw [State.instantReady]
    cases servesRequest s.consume.1.drive.apply s.run.state s.consume.2 <;> rfl
  rw [(s.actInstant_drive first).2.2.2, hready, he, hk']
  dsimp only
  rw [Drive.hold_some, hs]
  cases s.sched.fifo <;> rfl

/-- An underrun is counted (R45). -/
theorem State.actInstant_underrun (first : List InstantReport) : (s.actInstant first).counter .underrun =
    if s.sched.fifo = [] then min 4294967295 (s.counter .underrun + 1) else s.counter .underrun := by
  obtain ⟨k, hk, hs, -⟩ := Sched.consume_taken hq hh
  have hu : (s.actInstant first).counter .underrun = s.instantFacts.1.counter .underrun :=
    congrArg (·.2.2.1) (s.actInstant_outputCounts first)
  rw [hu, State.instantFacts_counter (State.computes_of_playing hr) (by decide) (by decide), State.consume_playing hr hk, hs]
  cases s.sched.fifo with
  | nil => exact State.bump_counter _ _
  | cons x l => rfl

include hx

/-- The end of the schedule in RUN or PAUSING (R44). -/
theorem State.actInstant_ended (first : List InstantReport) (h1 : e.length ≤ p.offset + 1) (h2 : e.repeats ≤ p.rep)
    (h3 : rest = []) (hn : s.run.state ≠ .stopping) : (s.actInstant first).halted := by
  obtain ⟨k, hk, -, -, -, ht, he⟩ := Sched.consume_taken hq hh
  have hlast : lastPosition e p = true := decide_eq_true ⟨h1, h2⟩
  rw [hlast] at ht he
  refine State.instant_halts hr hx hn (fun u hu => hu.segment (k := k) ((State.consume_snd hr).trans hk) ht ?_) first (by decide)
  rw [he, h3]
  rfl

/-- An underrun in RUN or PAUSING (R45). -/
theorem State.actInstant_starved (first : List InstantReport) (hf : s.sched.fifo = []) (hn : s.run.state ≠ .stopping) :
    (s.actInstant first).halted := by
  obtain ⟨k, hk, hs, -⟩ := Sched.consume_taken hq hh
  refine State.instant_halts hr hx hn (fun u hu => hu.underrun (k := k) ((State.consume_snd hr).trans hk) ?_
    (RunState.stoppable_of_playing hr hn)) first (by decide)
  rw [hs, hf]
  rfl

end

end Sys2Proof.Machine

namespace Sys2Proof.Machine

variable {s : State} {e : Entry} {rest : List Entry} {p : HeadPos} {r : PosRecord}

/-! ### The marker line and the orders an instant leaves (R50 to R52, R103) -/

theorem State.slots_of_eq {slots : List MarkerSlot} (h : slots = [s.items.slot0, s.items.slot1, s.items.slot2, s.items.slot3])
    {u : State} (hu : u.items = s.items) : slots = u.items.slots.map Prod.snd := by rw [h, hu, Items.slots_map]

/-- The marker report touches, of the schedule unit, the line and its count alone (R51). -/
theorem State.evaluateMarkers_sched (r : PosRecord) (s : State) : ∃ m n,
    (s.evaluateMarkers r).sched = { s.sched with mark := m, pulse := n } := by
  rw [State.evaluateMarkers_eq]
  by_cases h : ∃ m ∈ s.items.slots.map Prod.snd, m.hits r = true ∧ m.action = .pulse
  · exact ⟨true, _, State.slots_pulsed h s⟩
  · exact ⟨_, _, State.slots_unpulsed (fun m hm h1 h2 => h ⟨m, hm, h1, h2⟩) s⟩

section
variable (hr : s.run.state.playing = true) (hx : s.scratch.stepped = none) (hq : s.sched.queue = e :: rest)
  (hh : s.sched.head = some p)
include hr hx hq hh

/-- The schedule unit after an instant is that of the consumption, but for the burst and the marker line. -/
theorem State.actInstant_sched (first : List InstantReport) : ∃ b m n,
    (s.actInstant first).sched = { s.sched.consume.1 with burst := b, mark := m, pulse := n } := by
  obtain ⟨u, hs, -, -, -, ⟨b, hb⟩, -⟩ := State.markers_among hr hx first
  rw [State.markersReport_eq hr hq hh] at hb
  split at hb
  · obtain ⟨m, n, hm⟩ := u.evaluateMarkers_sched { tag := BitVec.ofNat 16 e.tag, rep := BitVec.ofNat 16 p.rep }
    exact ⟨b, m, n, by rw [hb, hm, hs]⟩
  · exact ⟨b, _, _, by rw [hb, hs]⟩

/-- Away from offset 0 in RUN no slot is evaluated (R50). -/
theorem State.actInstant_unmarked (first : List InstantReport) (hn : s.run.state ≠ .run ∨ p.offset ≠ 0) :
    (s.actInstant first).orders = s.orders ∧ (s.actInstant first).line = s.line := by
  obtain ⟨u, hs, hb, -, -, ⟨b, hsched⟩, hbook⟩ := State.markers_among hr hx first
  rw [State.markersReport_eq hr hq hh, if_neg fun h => hn.elim (· h.1) (· h.2)] at hsched hbook
  obtain ⟨-, -, -, -, -, -, hm, hp⟩ := Sched.consume_fields hq hh
  refine ⟨congrArg Prod.fst (hbook.trans hb), ?_⟩
  unfold State.line
  rw [hsched, hs]
  exact Prod.ext hm hp

/-- At an offset-0 position in RUN the slots are evaluated once, for the record consumed (R50). -/
theorem State.actInstant_marked (first : List InstantReport) (hs : s.run.state = .run) (h0 : p.offset = 0)
    (hrec : r = { tag := BitVec.ofNat 16 e.tag, rep := BitVec.ofNat 16 p.rep }) : ∃ u : State,
    u.line = s.line ∧ u.booking = s.booking ∧ u.items = s.items ∧ u.time.cycle = s.time.cycle ∧
    (s.actInstant first).line = (u.evaluateMarkers r).line ∧ (s.actInstant first).booking = (u.evaluateMarkers r).booking := by
  obtain ⟨u, hsched, hb, hi, hc, ⟨b, ha⟩, hbook⟩ := State.markers_among hr hx first
  rw [State.markersReport_eq hr hq hh, if_pos ⟨hs, h0⟩, ← hrec] at ha hbook
  obtain ⟨-, -, -, -, -, -, hm, hp⟩ := Sched.consume_fields hq hh
  refine ⟨u, ?_, hb, hi, hc, ?_, hbook⟩
  · unfold State.line
    rw [hsched]
    exact Prod.ext hm hp
  · unfold State.line
    rw [ha]

/-- What the slots do at an offset-0 position in RUN (R50 to R52, R103). -/
theorem State.actInstant_slots (first : List InstantReport) (hs : s.run.state = .run) (h0 : p.offset = 0)
    (hrec : r = { tag := BitVec.ofNat 16 e.tag, rep := BitVec.ofNat 16 p.rep }) {slots : List MarkerSlot}
    (hslots : slots = [s.items.slot0, s.items.slot1, s.items.slot2, s.items.slot3]) :
    ((∃ m ∈ slots, m.hits r = true ∧ m.action = .pulse) → (s.actInstant first).line = (true, s.items.pulseCycles)) ∧
    ((∀ m ∈ slots, m.hits r = true → m.action ≠ .pulse) → (s.actInstant first).line = s.line) ∧
    ((∃ m ∈ slots, m.hits r = true ∧ m.action = .pause) → s.mayOriginate = true →
      (s.actInstant first).booking = s.pauseBooked) ∧
    ((∀ m ∈ slots, m.hits r = true → m.action ≠ .pause) ∨ s.mayOriginate = false →
      (s.actInstant first).booking = s.booking) := by
  obtain ⟨u, hu, hb, hi, hc, hline, hbook⟩ := State.actInstant_marked hr hx hq hh first hs h0 hrec
  rw [State.evaluateMarkers_eq] at hline hbook
  rw [State.slots_of_eq hslots hi, hline, hbook]
  have hmay := State.mayOriginate_of_booking hb
  have hpause : u.pauseBooked = s.pauseBooked := by
    unfold State.booking at hb
    rw [Prod.mk.injEq] at hb
    unfold State.pauseBooked State.newOrder State.ownNumber
    rw [hb.1, hb.2, hc, hi, show u.port.items = s.port.items from hi]
  refine ⟨fun h => ?_, fun h => ?_, fun h ho => ?_, fun h => ?_⟩
  · unfold State.line
    rw [State.slots_pulsed h, hi]
    rfl
  · refine Eq.trans ?_ hu
    unfold State.line
    rw [State.slots_unpulsed h]
  · exact (State.slots_booked h (hmay.trans ho)).trans hpause
  · exact (State.slots_unbooked (h.imp_right hmay.trans)).trans hb

end

theorem State.mayOriginate_eq_true (h1 : s.orders.carried = none) (h2 : s.orders.pending.length < 4) : s.mayOriginate = true := by
  simp [State.mayOriginate, h1, h2]

theorem State.mayOriginate_eq_false (h : s.orders.carried ≠ none ∨ 4 ≤ s.orders.pending.length) : s.mayOriginate = false := by
  rw [← Bool.not_eq_true]
  intro hm
  simp only [State.mayOriginate, Bool.and_eq_true, Option.isNone_iff_eq_none, decide_eq_true_eq] at hm
  exact h.elim (· hm.1) fun h => by omega

/-- Settles O15: the consumption by its position, the halting reports wherever they stand, the marker report alone among them. -/
theorem instantConsumesOnePosition : Obligations.InstantConsumesOnePosition := by
  refine ⟨fun s first e rest p hc hm hr hq hh => ⟨_, State.instant_exec hc hm first, ?_⟩, MarkerSlot.hits_iff,
    fun s r k m hf hl v hv => ?_⟩
  · have hx : s.instantEdge.scratch.stepped = none := rfl
    have hmark : (s.instantEdge.actInstant first).time.mark = true :=
      (State.mark_of_steady (s.instantEdge.actInstant_steady first)).trans
        (congrArg Time.mark s.instantEdge.instantFacts_time.1)
    obtain ⟨b, x, n, hsched⟩ := State.actInstant_sched (s := s.instantEdge) hr hx hq hh first
    obtain ⟨f1, f2, f3, f4, f5, f6, -, -⟩ := Sched.consume_fields hq hh
    obtain ⟨-, hramp, -⟩ := State.actInstant_inPlay (s := s.instantEdge) (State.inPlay_of_playing hr) hx first
    refine ⟨hmark, (congrArg Sched.replay hsched).trans f1, (congrArg Sched.next hsched).trans f2,
      (congrArg Sched.current hsched).trans f3, (congrArg Sched.previous hsched).trans f4,
      (congrArg Sched.fifo hsched).trans f5, (congrArg Sched.debt hsched).trans f6,
      State.actInstant_held (s := s.instantEdge) hr hq hh first, fun h1 => ?_, fun h1 h2 => ?_, fun h1 h2 => ?_,
      fun h1 h2 h3 hn => ?_, State.actInstant_underrun (s := s.instantEdge) hr hq hh first, fun h1 hn => ?_, fun hn => ?_,
      fun hs h0 r hrec slots hslots => ?_⟩
    · obtain ⟨g1, g2⟩ := Sched.consume_within hq hh h1
      exact ⟨(congrArg Sched.queue hsched).trans g1, (congrArg Sched.head hsched).trans g2⟩
    · obtain ⟨g1, g2⟩ := Sched.consume_repeat hq hh h1 h2
      exact ⟨(congrArg Sched.queue hsched).trans g1, (congrArg Sched.head hsched).trans g2⟩
    · obtain ⟨g1, g2⟩ := Sched.consume_retire hq hh h1 h2
      exact ⟨(congrArg Sched.queue hsched).trans g1, (congrArg Sched.head hsched).trans g2⟩
    · obtain ⟨g1, g2⟩ := State.actInstant_ended (s := s.instantEdge) hr hx hq hh first h1 h2 h3 hn
      exact ⟨g1, g2, hramp⟩
    · exact (State.actInstant_starved (s := s.instantEdge) hr hx hq hh first h1 hn).1
    · obtain ⟨g1, g2⟩ := State.actInstant_unmarked (s := s.instantEdge) hr hx hq hh first hn
      exact ⟨g1, congrArg Prod.fst g2, congrArg Prod.snd g2⟩
    · obtain ⟨g1, g2, g3, g4⟩ := State.actInstant_slots (s := s.instantEdge) hr hx hq hh first hs h0 hrec hslots
      refine ⟨fun h => ?_, fun h => ?_, fun h hc hp o ho => ?_, fun h => ?_⟩
      · exact ⟨congrArg Prod.fst (g1 h), congrArg Prod.snd (g1 h)⟩
      · exact ⟨congrArg Prod.fst (g2 h), congrArg Prod.snd (g2 h)⟩
      · have hb := g3 h (State.mayOriginate_eq_true hc hp)
        subst ho
        exact ⟨(congrArg Prod.fst hb).trans rfl, (congrArg Prod.snd hb).trans rfl⟩
      · have hb := g4 (h.imp_right State.mayOriginate_eq_false)
        exact ⟨congrArg Prod.fst hb, congrArg Prod.snd hb⟩
  · rw [State.evaluateMarkers_hits, hf]
    exact State.slotStep_events hl hv

end Sys2Proof.Machine

namespace Sys2Proof.Machine

variable {s t u : State}

/-! ### What the READY law and the law of motion read (R62, R74) -/

/-- The READY conditions of the schedule unit: a head and the fill condition (R37, R74). -/
def State.supplied (s : State) : Bool := s.sched.head.isSome && s.filled

/-- Run state, servo-ready, and the READY conditions of the schedule unit. -/
def State.stance (s : State) : RunState × Bool × Bool := (s.run.state, s.servo.ready, s.supplied)

/-- The stance with the completeness of the roster: all that the READY law and the law of motion read. -/
def State.footing (s : State) : (RunState × Bool × Bool) × Bool := (s.stance, s.rosterComplete)

theorem State.stance_eq_iff : t.stance = s.stance ↔
    t.run.state = s.run.state ∧ t.servo.ready = s.servo.ready ∧ t.supplied = s.supplied := by simp [State.stance]

theorem State.footing_eq_iff : t.footing = s.footing ↔ t.stance = s.stance ∧ t.rosterComplete = s.rosterComplete :=
  Prod.ext_iff

theorem State.readyConditions_iff (s : State) :
    s.readyConditions = true ↔ s.supplied = true ∧ s.servo.ready = true ∧ s.rosterComplete = true := by
  simp [State.readyConditions, State.supplied, and_assoc]

theorem State.readyConditions_of_footing (h : t.footing = s.footing) : t.readyConditions = s.readyConditions := by
  obtain ⟨h1, h2⟩ := State.footing_eq_iff.mp h
  obtain ⟨-, h3, h4⟩ := State.stance_eq_iff.mp h1
  rw [Bool.eq_iff_iff, t.readyConditions_iff, s.readyConditions_iff, h2, h3, h4]

/-- The parts that the footing reads stand. -/
theorem State.footing_of_parts (hr : t.run.state = s.run.state) (hs : t.servo = s.servo) (hc : t.sched = s.sched)
    (hp : t.peers = s.peers) : t.footing = s.footing := by
  refine State.footing_eq_iff.mpr ⟨State.stance_eq_iff.mpr ⟨hr, by rw [hs], ?_⟩, State.rosterComplete_of_peers hp⟩
  unfold State.supplied State.filled State.endMarker
  rw [hc]

theorem State.footing_of_aside (h : s.Aside t) (hr : t.run.state = s.run.state) : t.footing = s.footing :=
  State.footing_of_parts hr h.servo h.sched h.peers

/-- From s to t the READY law holds on, and with it the law of motion. -/
structure Footed (s t : State) : Prop where
  ready : s.readyLaw → t.readyLaw
  motion : s.readyLaw → s.motionLaw → t.motionLaw

theorem Footed.refl (s : State) : Footed s s := ⟨id, fun _ => id⟩

theorem Footed.trans (h : Footed s t) (g : Footed t u) : Footed s u :=
  ⟨fun x => g.ready (h.ready x), fun x y => g.motion (h.ready x) (h.motion x y)⟩

theorem Footed.still (h : t.footing = s.footing) : Footed s t := by
  have hc := State.readyConditions_of_footing h
  obtain ⟨h1, h2⟩ := State.footing_eq_iff.mp h
  obtain ⟨h3, h4, -⟩ := State.stance_eq_iff.mp h1
  refine ⟨fun g => ?_, fun _ g => ?_⟩
  · unfold State.readyLaw at g ⊢
    rwa [h3, hc, h2]
  · unfold State.motionLaw at g ⊢
    rwa [h3, h4]

/-- An act behind a change that leaves the footing. -/
theorem Footed.after (h : Footed t u) (e : t.footing = s.footing) : Footed s u := (Footed.still e).trans h

/-- A change that leaves the footing behind an act. -/
theorem Footed.then (h : Footed s t) (e : u.footing = t.footing) : Footed s u := h.trans (.still e)

theorem Footed.foldl {α : Type} (f : State → α → State) (h : ∀ t a, Footed t (f t a)) (l : List α) (s : State) :
    Footed s (l.foldl f s) :=
  List.foldlRecOn (motive := fun t : State => Footed s t) l f (.refl s) fun t ht a _ => ht.trans (h t a)

/-- An act that ends outside READY and STANDBY; in motion it ends only from motion, with servo-ready as it was. -/
theorem Footed.passed (h1 : t.run.state ≠ .ready) (h2 : t.run.state ≠ .standby)
    (hm : t.run.state.inMotion = true → s.run.state.inMotion = true ∧ t.servo.ready = s.servo.ready) : Footed s t :=
  ⟨fun _ => ⟨fun e => absurd e h1, fun e => absurd e h2⟩, fun _ g e => (hm e).2.trans (g (hm e).1)⟩

/-- An act that ends where nothing moves and no READY condition is held. -/
theorem Footed.halted (h : t.run.state ∈ [RunState.offline, .assembly, .stopped, .tripped]) : Footed s t := by
  refine .passed ?_ ?_ fun e => absurd e ?_
  all_goals
    simp only [List.mem_cons, List.not_mem_nil, or_false] at h
    rcases h with h | h | h | h <;> rw [h] <;> decide

theorem Footed.change {r : RunState} (h : r ≠ .ready ∧ r ≠ .standby) (hm : r.inMotion = true → s.run.state.inMotion = true) :
    Footed s (s.changeState r) := .passed h.1 h.2 fun e => ⟨hm e, by rw [State.changeState_servo]⟩

/-! ### The READY test (R74, R75) -/

theorem State.changeState_readyConditions (r : RunState) (s : State) : (s.changeState r).readyConditions = s.readyConditions := by
  unfold State.readyConditions State.filled State.endMarker
  rw [State.changeState_sched, State.changeState_servo, State.rosterComplete_of_peers (s.changeState_peers r)]

/-- The READY test leaves the READY law, where STANDBY is held with a complete roster alone. -/
theorem State.readyTest_readyLaw (h : s.run.state = .standby → s.rosterComplete = true) : s.readyTest.readyLaw := by
  unfold State.readyTest
  split
  case h_1 hs =>
    split
    · rename_i hc
      exact ⟨fun _ => (s.changeState_readyConditions _).trans hc, fun e => absurd e (by simp)⟩
    · rename_i hc
      exact ⟨fun e => absurd (hs.symm.trans e) (by decide), fun _ => ⟨h hs, Bool.eq_false_iff.mpr hc⟩⟩
  case h_2 hs =>
    split
    · exact ⟨fun e => absurd e (by simp), fun e => absurd e (by simp)⟩
    · rename_i hr
      split
      · rename_i hc
        exact ⟨fun _ => hc, fun e => absurd (hs.symm.trans e) (by decide)⟩
      · rename_i hc
        refine ⟨fun e => absurd e (by simp), fun _ => ⟨?_, (s.changeState_readyConditions _).trans (Bool.eq_false_iff.mpr hc)⟩⟩
        exact (State.rosterComplete_of_peers (s.changeState_peers _)).trans (by simpa using hr)
  case h_3 h1 h2 => exact ⟨fun e => absurd e h2, fun e => absurd e h1⟩

/-- The READY test brings no node into motion. -/
theorem State.readyTest_motionLaw (h : s.motionLaw) : s.readyTest.motionLaw := by
  rcases s.readyTest_cases with e | ⟨-, e⟩ | ⟨-, r, hr, e⟩ <;> rw [e]
  · exact h
  · exact fun e => absurd e (by simp [RunState.inMotion])
  · rcases hr with rfl | rfl <;> exact fun e => absurd e (by simp [RunState.inMotion])

theorem Footed.tested (hr : s.readyLaw → t.run.state = .standby → t.rosterComplete = true)
    (hm : s.readyLaw → s.motionLaw → t.motionLaw) : Footed s t.readyTest :=
  ⟨fun g => State.readyTest_readyLaw (hr g), fun g h => State.readyTest_motionLaw (hm g h)⟩

/-- The READY test behind a change of the schedule unit. -/
theorem Footed.retested (hr : t.run.state = s.run.state) (hs : t.servo = s.servo) (hp : t.peers = s.peers) :
    Footed s t.readyTest :=
  .tested (fun g e => (State.rosterComplete_of_peers hp).trans (g.2 (hr.symm.trans e)).1) fun _ g => by
    unfold State.motionLaw at g ⊢
    rwa [hr, hs]

theorem State.returnToReady_footed (s : State) : Footed s s.returnToReady :=
  .tested (fun _ e => absurd e (by simp)) fun _ _ e => absurd e (by simp [RunState.inMotion])

theorem State.enterStandby_footed (h : s.rosterComplete = true) : Footed s s.enterStandby :=
  .tested (fun _ _ => (State.rosterComplete_of_peers (s.changeState_peers _)).trans h)
    fun _ _ e => absurd e (by simp [RunState.inMotion])

end Sys2Proof.Machine

namespace Sys2Proof.Machine

variable (s : State)

/-! ### The run controller -/

@[simp] theorem State.post_footing (k : EventKind) (a b : Word) : (s.post k a b).footing = s.footing :=
  State.footing_of_aside (s.post_aside k a b) (by simp)

@[simp] theorem State.bump_footing (c : Counter) : (s.bump c).footing = s.footing := rfl

/-- The reader fetches only where its end marker is clear, so that the fill condition stands (R34, R37). -/
theorem State.fetch_footing : s.fetch.footing = s.footing := by
  unfold State.fetch
  split
  · rfl
  · rename_i r hr
    split
    · refine State.footing_eq_iff.mpr ⟨State.stance_eq_iff.mpr ⟨rfl, rfl, ?_⟩, rfl⟩
      simp [State.supplied, State.filled, State.endMarker, State.requestBurst, hr]
    · rfl

theorem State.rewind_state : s.rewind.run.state = s.run.state := (State.gear_eq_iff.mp s.rewind_gear).1

theorem State.enterStopped_footed : Footed s s.enterStopped :=
  .halted (by rw [State.enterStopped, State.rewind_state]; simp)

theorem State.takeReport_footed (r : RampReport) : Footed s (s.takeReport r) := by
  cases r with
  | nothing => exact .refl s
  | rampAtZero =>
    simp only [State.takeReport]
    split
    · rename_i h
      exact Footed.after (.change (by decide) fun _ => by rw [h]; rfl) (t := s.bring .rampEnd) rfl
    · exact .still rfl
  | descentAtZero =>
    simp only [State.takeReport]
    split
    · exact (State.enterStopped_footed _).after rfl
    · exact .still rfl

theorem State.stepRunRamp_footed : Footed s s.stepRunRamp := (State.takeReport_footed s.runStepped _).after rfl

theorem State.firstStep_footed : Footed s s.firstStep := by
  unfold State.firstStep
  split
  · exact s.stepRunRamp_footed
  · exact .refl s

theorem State.beginRamp_footed (z : Bool) (x n : Nat) : Footed s (s.beginRamp z x n) := by
  unfold State.beginRamp
  split
  · exact .refl s
  · exact (State.firstStep_footed (s.installRamp z x n)).after rfl

theorem State.stepRamps_footed : Footed s s.stepRamps := by
  unfold State.stepRamps
  split
  · exact .refl s
  · exact (State.stepRunRamp_footed s.levelStepped).after rfl

theorem State.reportIncomplete_footed : Footed s s.reportIncomplete := by
  unfold State.reportIncomplete
  split
  · exact .still rfl
  · exact .halted (by simp)
  · exact .halted (by simp)
  · exact .refl s

/-! ### Stop requests (R82) -/

theorem State.taken_footing (q : StopRequest) : (s.taken q).footing = s.footing := by simp [State.taken]

theorem State.noteRequest_footing (q : StopRequest) : (s.noteRequest q).footing = s.footing :=
  State.footing_of_aside (s.noteRequest_facts q).1 (s.noteRequest_facts q).2.1

theorem State.cancelCountdown_footed (q : StopRequest) : Footed s (s.cancelCountdown q) :=
  (State.returnToReady_footed _).after (s.taken_footing q)

theorem State.enterStopping_footed (q : StopRequest) (h : s.run.state.inMotion = true) : Footed s (s.enterStopping q) := by
  have hc : Footed s (((s.taken q).latch q).setStopField q |>.changeState .stopping) := by
    refine Footed.after (t := ((s.taken q).latch q).setStopField q) (.change (by decide) fun _ => ?_) (s.taken_footing q)
    show (s.taken q).run.state.inMotion = true
    simpa [State.taken] using h
  exact hc.trans ((State.firstStep_footed _).after rfl)

theorem State.enterTripped_footed (q : StopRequest) : Footed s (s.enterTripped q) :=
  .halted (by rw [(s.enterTripped_fields q).1]; simp)

theorem State.request_footed (q : StopRequest) : Footed s (s.request q) := by
  have hf : s.countFurther.footing = s.footing := rfl
  have hn : Footed s (s.countFurther.noteRequest q) := .still (State.noteRequest_footing _ q)
  have hs : s.run.state.inMotion = true → Footed s (s.countFurther.enterStopping q) := fun h =>
    (State.enterStopping_footed _ q (by exact h)).after hf
  simp only [State.request]
  split
  case h_1 => exact .refl s
  case h_2 | h_11 | h_12 => exact .still rfl
  case h_3 => exact (State.enterTripped_footed _ q).after hf
  case h_4 | h_5 | h_6 | h_13 => exact hn
  case h_7 => exact (State.cancelCountdown_footed _ q).after hf
  case h_8 h => exact hs (by rw [h]; rfl)
  case h_9 h => exact hs (by rw [h]; rfl)
  case h_10 h => exact hs (by rw [h]; rfl)

theorem State.requestLocal_footed (c : Cause) (n : Nat) : Footed s (s.requestLocal c n) := s.request_footed _

theorem State.isolatedTest_footed : Footed s s.isolatedTest := by
  unfold State.isolatedTest
  split
  · exact s.requestLocal_footed _ _
  · exact .refl s

/-! ### Assembly and countdown (R73, R76 to R78) -/

theorem State.assemblyTest_footed : Footed s s.assemblyTest := by
  simp only [State.assemblyTest]
  split
  · split
    · rename_i h
      split
      · exact Footed.after (State.enterStandby_footed (by exact h)) rfl
      · exact .still rfl
    · exact .still rfl
  · exact .refl s

theorem State.countdownCheck_footed : Footed s s.countdownCheck := by
  unfold State.countdownCheck
  split
  · split
    · exact (State.returnToReady_footed _).after (s.post_footing _ _ _)
    · exact .refl s
  · exact .refl s

/-- Only a READY node enters COUNTDOWN, and READY holds servo-ready asserted (R74, R76). -/
theorem State.enterCountdown_footed (i : OrderId) (h : s.run.state = .ready) : Footed s (s.enterCountdown i) := by
  have hr : (s.enterCountdown i).run.state = .countdown := (s.enterCountdown_fields i).1
  have hv : (s.enterCountdown i).servo = s.servo := State.servo_of_steady (State.steady_of_quiet (State.enterCountdown_quiet i s))
  refine ⟨fun _ => ⟨fun e => absurd (hr.symm.trans e) (by decide), fun e => absurd (hr.symm.trans e) (by decide)⟩, fun g _ _ => ?_⟩
  rw [hv]
  exact (s.readyConditions_iff.mp (g.1 h)).2.1

end Sys2Proof.Machine

namespace Sys2Proof.Machine

variable (s : State)

/-! ### The order unit -/

theorem State.originate_footed (k : OrderKind) (a b : Nat) (hk : k = .start → s.run.state = .ready) :
    Footed s (s.originate k a b) := by
  simp only [State.originate]
  split
  · rename_i h
    exact (State.enterCountdown_footed _ _ (by exact hk h)).after rfl
  · exact .still rfl

theorem State.displace_footed (e w : Order) : Footed s (s.displace e w) := by
  have hr : ∀ t : State, t.footing = s.footing →
      Footed s (if t.run.state = .countdown ∧ t.run.countdown = some e.id then t.returnToReady else t) := by
    intro t ht
    split
    · exact t.returnToReady_footed.after ht
    · exact .still ht
  unfold State.displace
  refine hr _ ?_
  dsimp only
  split
  · exact State.post_footing _ _ _ _
  · rfl

theorem State.considerStart_footed (f : Frame) (o : Order) : Footed s (s.considerStart f o) := by
  unfold State.considerStart
  split
  · rename_i h
    split
    · exact s.enterCountdown_footed _ h.2
    · exact .still (s.post_footing _ _ _)
  · exact .refl s

theorem State.insertAdopted_footed (f : Frame) (o : Order) : Footed s (s.insertAdopted f o) :=
  (State.considerStart_footed _ f o).after (State.post_footing _ _ _ _)

theorem State.placeAdopted_footed (f : Frame) (j : Station) (o : Order) : Footed s (s.placeAdopted f j o) := by
  unfold State.placeAdopted
  split
  · exact s.requestLocal_footed _ _
  · split
    · exact s.requestLocal_footed _ _
    · exact s.insertAdopted_footed f o

theorem State.adopt_footed (f : Frame) (j : Station) (o : Order) : Footed s (s.adopt f j o) := by
  unfold State.adopt
  split
  · exact .refl s
  split
  · exact .refl s
  split
  · exact .refl s
  split
  · exact (s.displace_footed _ _).trans (State.placeAdopted_footed _ f j o)
  · split
    · exact s.requestLocal_footed _ _
    · exact s.placeAdopted_footed f j o

theorem State.takeOrderPart_footed (f : Frame) (j : Station) : Footed s (s.takeOrderPart f j) := by
  simp only [State.takeOrderPart]
  split
  · exact .still rfl
  · split
    · exact (State.adopt_footed _ f j _).after rfl
    · exact .still rfl

theorem State.noteApplied_footing (o : Order) : (s.noteApplied o).footing = s.footing := by simp [State.noteApplied]

theorem State.declareInapplicable_footing (o : Order) : (s.declareInapplicable o).footing = s.footing := by
  simp [State.declareInapplicable]

/-- An order applied moves the node within the states in motion (R114 to R116). -/
theorem State.ordered_footed (o : Order) {r : RunState} (h : s.run.state.orderedTo r = true) :
    Footed s ((s.noteApplied o).changeState r) := by
  have hm : (r ≠ .ready ∧ r ≠ .standby) ∧ s.run.state.inMotion = true := by
    cases hs : s.run.state <;> cases r <;> simp_all [RunState.orderedTo, RunState.inMotion]
  exact Footed.after (.change hm.1 fun _ => by rw [State.noteApplied_run]; exact hm.2) (s.noteApplied_footing o)

theorem State.applyStart_footed (o : Order) (h : s.run.state = .countdown) : Footed s (s.applyStart o) :=
  ((s.ordered_footed o (by rw [h]; rfl)).then (u := (((s.noteApplied o).changeState .run).setLevel o.b).setRunStart) rfl).trans
    (State.beginRamp_footed _ _ _ _)

theorem State.takeStart_footed (o : Order) : Footed s (s.takeStart o) := by
  simp only [State.takeStart]
  split
  · split
    · rename_i h; exact s.countdownCheck_footed.trans (State.applyStart_footed _ o h)
    · exact s.countdownCheck_footed.then (State.declareInapplicable_footing _ o)
  · exact .still (s.declareInapplicable_footing o)

theorem State.settleOrder_footed (o : Order) : Footed s (s.settleOrder o) := by
  have hl : Footed s (s.applyLevel o) := .still (Eq.trans rfl (s.noteApplied_footing o))
  unfold State.settleOrder
  split
  case h_1 => exact s.takeStart_footed o
  case h_2 h => exact (s.ordered_footed o (by rw [h]; rfl)).trans (State.beginRamp_footed _ _ _ _)
  case h_3 h =>
    exact ((s.ordered_footed o (r := .run) (by rw [h]; rfl)).then (u := ((s.noteApplied o).changeState .run).setRunStart) rfl).trans
      (State.beginRamp_footed _ _ _ _)
  case h_4 | h_5 | h_6 => exact hl
  case h_7 => exact .still (s.declareInapplicable_footing o)

theorem State.takeDueOrders_footed : Footed s s.takeDueOrders := by
  unfold State.takeDueOrders
  split
  · exact .foldl _ (fun t o => (State.settleOrder_footed _ o).after (t := t.retireOrder o) rfl) _ s
  · exact .refl s

/-! ### The peer table (R137, R138) -/

theorem State.rosterComplete_iff : s.rosterComplete = true ↔ ∀ j, (s.peer j).expected = true → (s.peer j).state = .active := by
  simp [State.rosterComplete, stations_eq, imp_iff_not_or]

/-- A peer table entry changed, the roster as complete as before. -/
theorem State.onPeer_footing (j : Station) {f : Peer → Peer} (he : (f (s.peer j)).expected = (s.peer j).expected)
    (hx : (s.peer j).expected = true → ((f (s.peer j)).state = .active ↔ (s.peer j).state = .active)) :
    (s.onPeer j f).footing = s.footing := by
  refine State.footing_eq_iff.mpr ⟨rfl, ?_⟩
  rw [Bool.eq_iff_iff, State.rosterComplete_iff, State.rosterComplete_iff]
  refine forall_congr' fun k => ?_
  by_cases e : k = j
  · subst e
    rw [State.onPeer_peer, he]
    exact forall_congr' hx
  · rw [State.onPeer_peer_other _ _ _ _ e]

/-- An entry changed but for its expected flag and its state. -/
theorem State.onPeer_footing_of_eq (j : Station) {f : Peer → Peer} (he : ∀ p, (f p).expected = p.expected)
    (hx : ∀ p, (f p).state = p.state) : (s.onPeer j f).footing = s.footing :=
  s.onPeer_footing j (he _) fun _ => by rw [hx]

/-- What a change of an entry's state does to the footing: an entry left in its state posts nothing (R146). -/
theorem State.setPeerState_footing (j : Station) (p : PeerState) (c : Nat) :
    (s.setPeerState j p c).footing = (s.onPeer j (fun q => { q with state := p })).footing := by
  simp only [State.setPeerState]
  split
  · rename_i h
    exact (s.onPeer_footing j (by exact rfl) fun _ => by rw [h]).symm
  · exact State.post_footing _ _ _ _

theorem State.setPeerState_stance (j : Station) (p : PeerState) (c : Nat) : (s.setPeerState j p c).stance = s.stance :=
  congrArg Prod.fst (s.setPeerState_footing j p c)

theorem State.setPeerState_still (j : Station) {p : PeerState} (c : Nat)
    (h : (s.peer j).expected = true → (p = .active ↔ (s.peer j).state = .active)) :
    (s.setPeerState j p c).footing = s.footing :=
  (s.setPeerState_footing j p c).trans (s.onPeer_footing j rfl h)

/-- What holds under the READY law alone may be proved under it. -/
theorem Footed.of_law {s t : State} (h : s.readyLaw → Footed s t) : Footed s t := ⟨fun g => (h g).ready g, fun g => (h g).motion g⟩

/-- READY and STANDBY are held with a complete roster (R74, R75). -/
theorem State.rosterComplete_of_readyLaw {s : State} (g : s.readyLaw) (h : s.run.state = .ready ∨ s.run.state = .standby) :
    s.rosterComplete = true := by
  rcases h with h | h
  · exact (s.readyConditions_iff.mp (g.1 h)).2.2
  · exact (g.2 h).1

/-- The report of an incomplete roster leaves neither READY nor STANDBY (R73, R75). -/
theorem State.reportIncomplete_cases : s.reportIncomplete.run.state = .assembly ∨
    (s.reportIncomplete = s ∧ s.run.state ≠ .ready ∧ s.run.state ≠ .standby) := by
  unfold State.reportIncomplete
  split
  case h_1 h => exact .inl h
  case h_2 | h_3 => exact .inl (by simp)
  case h_4 h1 h2 h3 => exact .inr ⟨rfl, h3, h2⟩

/-- What follows where an entry may have left ACTIVE: a roster no longer complete is reported, and a group peer may stop the node
(R155). -/
theorem Footed.loss {s t : State} (h : t.stance = s.stance) (j : Station) (c : Cause) :
    Footed s (t.rosterLoss j c s.rosterComplete) := by
  obtain ⟨hr, hv, -⟩ := State.stance_eq_iff.mp h
  have hpass : t.run.state ≠ .ready → t.run.state ≠ .standby → Footed s t := fun h1 h2 =>
    .passed h1 h2 fun e => ⟨by rwa [← hr], hv⟩
  have hu : Footed s (if s.rosterComplete && !t.rosterComplete then t.reportIncomplete else t) := by
    split
    · rcases t.reportIncomplete_cases with e | ⟨e, h1, h2⟩
      · exact .halted (by rw [e]; simp)
      · rw [e]; exact hpass h1 h2
    · rename_i hc
      refine .of_law fun g => ?_
      by_cases hs : s.rosterComplete = true
      · exact .still (State.footing_eq_iff.mpr ⟨h, by simpa [hs] using hc⟩)
      · exact hpass (fun e => hs (State.rosterComplete_of_readyLaw g (.inl (hr.symm.trans e))))
          (fun e => hs (State.rosterComplete_of_readyLaw g (.inr (hr.symm.trans e))))
  simp only [State.rosterLoss]
  generalize (if s.rosterComplete && !t.rosterComplete then t.reportIncomplete else t) = u at hu
  have hq := hu.trans (u.requestLocal_footed c (stationNumber j))
  split
  · split
    case h_1 | h_2 | h_3 | h_4 => exact hq
    case h_5 => exact hu
  · exact hu

/-- An entry moved to another state than ACTIVE, with the loss that leaving ACTIVE brings (R137, R155). -/
theorem State.movePeer_footed (j : Station) {p : PeerState} (hp : p ≠ .active) (n : Nat) (c : Cause) :
    Footed s (s.movePeer j p n c) := by
  simp only [State.movePeer]
  split
  · exact .loss (s.setPeerState_stance j p n) j c
  · rename_i h
    refine .still (s.setPeerState_still j n fun he => ⟨fun e => absurd e hp, fun e => absurd ⟨e, hp, he⟩ h⟩)

theorem State.reportProfile_footing (j : Station) (b : Byte) : (s.reportProfile j b).footing = s.footing := by
  unfold State.reportProfile
  split
  · rfl
  · exact s.post_footing _ _ _

theorem State.evaluated_ne_active (j : Station) (b : Byte) : s.evaluated j b ≠ .active := by
  unfold State.evaluated
  split <;> decide

theorem State.restartPeer_footed (j : Station) (b : Byte) : Footed s (s.restartPeer j b) := by
  simp only [State.restartPeer]
  generalize ht : s.onPeer j (fun p => { p with restarts := min 65535 (p.restarts + 1), window := [], holdRun := 0 }) = t
  have hf : t.footing = s.footing := by rw [← ht]; exact s.onPeer_footing_of_eq j (fun _ => rfl) fun _ => rfl
  have hj : (t.peer j).expected = (s.peer j).expected ∧ (t.peer j).state = (s.peer j).state := by
    rw [← ht, State.onPeer_peer]; exact ⟨rfl, rfl⟩
  have hu := State.reportProfile_footing (t.setPeerState j (t.evaluated j b) 5) j b
  split
  · exact .loss ((congrArg Prod.fst hu).trans ((t.setPeerState_stance j _ 5).trans (congrArg Prod.fst hf))) j .peerRestart
  · rename_i h
    refine .still (hu.trans ((t.setPeerState_still j 5 fun he => ?_).trans hf))
    rw [hj.1] at he
    rw [hj.2]
    exact ⟨fun e => absurd e (t.evaluated_ne_active j b), fun e => absurd ⟨e, he⟩ h⟩

theorem State.admission_footing (j : Station) (b : Byte) (h : (s.peer j).state = .unseen) :
    (s.admission j b).footing = s.footing :=
  (State.reportProfile_footing _ j b).trans (s.setPeerState_still j 1 fun _ =>
    ⟨fun e => absurd e (s.evaluated_ne_active j b), fun e => absurd (h.symm.trans e) (by decide)⟩)

theorem State.testProfile_footed (j : Station) (b : Byte) : Footed s (s.testProfile j b) := by
  simp only [State.testProfile]
  refine Footed.then ?_ (State.onPeer_footing_of_eq _ j (fun _ => rfl) fun _ => rfl)
  split
  · rename_i h; exact .still (s.admission_footing j b h)
  · split
    · exact s.restartPeer_footed j b
    · exact .refl s

theorem State.recordFrame_footing (j : Station) (f : Frame) : (s.recordFrame j f).footing = s.footing := by
  simp only [State.recordFrame]
  generalize ht : s.onPeer j (fun p =>
    { p with last := f.record, shares := f.domain &&& s.items.domain != 0, cycles := 0 }) = t
  have hf : t.footing = s.footing := by rw [← ht]; exact s.onPeer_footing_of_eq j (fun _ => rfl) fun _ => rfl
  split
  · rename_i h
    exact (t.setPeerState_still j 6 fun _ => by rw [h]; decide).trans hf
  · exact hf

theorem State.writeWindow_footing (j : Station) (f : Frame) : (s.writeWindow j f).footing = s.footing := by
  have h : ∀ w, (s.onPeer j (fun q => { q with window := w })).footing = s.footing := fun w =>
    s.onPeer_footing_of_eq j (fun _ => rfl) fun _ => rfl
  simp only [State.writeWindow]
  split
  · split <;> exact h _
  · rfl

theorem State.skewCheck_footed (j : Station) (f : Frame) : Footed s (s.skewCheck j f) := by
  unfold State.skewCheck
  split
  · split
    · exact (State.requestLocal_footed _ _ _).after rfl
    · split
      · exact .refl s
      · split
        · exact .refl s
        · exact (State.requestLocal_footed _ _ _).after rfl
  · exact .refl s

theorem State.takeFrame_footed (j : Station) (f : Frame) (b : Bool) : Footed s (s.takeFrame j f b) := by
  have h : Footed s (if b then s.restartPeer j f.profile else s) := by
    split
    · exact s.restartPeer_footed _ _
    · exact .refl s
  exact (h.trans (State.testProfile_footed _ j _)).trans
    ((State.skewCheck_footed _ j f).after ((State.writeWindow_footing _ j f).trans (State.recordFrame_footing _ j f)))

theorem State.countMiss_footed (j : Station) : Footed s (s.countMiss j) := by
  have h : (s.onPeer j (fun p => { p with cycles := min 255 (p.cycles + 1) })).footing = s.footing :=
    s.onPeer_footing_of_eq j (fun _ => rfl) fun _ => rfl
  simp only [State.countMiss]
  split
  · split
    · exact (State.movePeer_footed _ j (by decide) 3 .peerLost).after h
    · exact .still h
  · exact .refl s

/-! ### The timebase (R126, R127, R142) -/

theorem State.considerAdoption_footing (j : Station) (f : Frame) (x : Stamp) : (s.considerAdoption j f x).1.footing = s.footing := by
  unfold State.considerAdoption
  split
  · exact State.post_footing _ _ _ _
  · rfl

theorem State.recordOffset_footing (j : Station) (r : Int) : (s.recordOffset j r).footing = s.footing := by
  have h : (s.onPeer j (fun p => { p with offset := limitOffset r })).footing = s.footing :=
    s.onPeer_footing_of_eq j (fun _ => rfl) fun _ => rfl
  simp only [State.recordOffset]
  split <;> exact h

theorem State.updateStepRun_footed (j : Station) (o : Int) : Footed s (s.updateStepRun j o) := by
  have h : ∀ n : Peer → Nat, (s.onPeer j (fun p => { p with stepRun := n p })).footing = s.footing := fun n =>
    s.onPeer_footing_of_eq j (fun _ => rfl) fun _ => rfl
  unfold State.updateStepRun
  split
  · split
    · unfold State.takeStepLoss
      split
      · exact (State.movePeer_footed _ j (by decide) 4 .stepLoss).after (h fun _ => 0)
      · exact .still (h fun _ => 0)
    · exact .still (h fun p => p.stepRun + 1)
  · exact .still (h fun _ => 0)

/-- A station promoted to ACTIVE leaves a complete roster complete (R142). -/
theorem State.rosterComplete_of_promotion (j : Station) (n : Nat) (h : s.rosterComplete = true) :
    (s.setPeerState j .active n).rosterComplete = true := by
  rw [(State.footing_eq_iff.mp (s.setPeerState_footing j .active n)).2, State.rosterComplete_iff]
  intro k
  by_cases e : k = j
  · subst e; rw [State.onPeer_peer]; exact fun _ => rfl
  · rw [State.onPeer_peer_other _ _ _ _ e]; exact s.rosterComplete_iff.mp h k

theorem State.takeOffset_footed (j : Station) (o : Int) : Footed s (s.takeOffset j o) := by
  unfold State.takeOffset
  split
  · obtain ⟨hr, hv, -⟩ := State.stance_eq_iff.mp (s.setPeerState_stance j .active 2)
    refine .tested (fun g e => s.rosterComplete_of_promotion j 2 (g.2 (hr.symm.trans e)).1) fun _ g => ?_
    unfold State.motionLaw at g ⊢
    rwa [hr, hv]
  · exact .refl s

theorem State.takeTiming_footed (j : Station) (f : Frame) (a : Nat) (x : Stamp) : Footed s (s.takeTiming j f a x) := by
  simp only [State.takeTiming]
  split
  · exact ((State.updateStepRun_footed _ j _).trans (State.takeOffset_footed _ j _)).after
      ((State.recordOffset_footing _ j _).trans (s.considerAdoption_footing j f x))
  · exact .refl s

theorem State.computeTrim_footing : s.computeTrim.footing = s.footing := by
  simp only [State.computeTrim]
  split
  · split <;> rfl
  · rfl

end Sys2Proof.Machine

namespace Sys2Proof.Machine

variable (s : State)

/-! ### The ring ports -/

theorem State.emptyQueue_footing (l : Lane) : (s.emptyQueue l).footing = s.footing := by
  have h : ((s.lane l).queue.foldl (fun t q => q.countLost l t) s).footing = s.footing :=
    foldl_keeps State.footing _ (fun t q => by cases q <;> rfl) _ s
  exact Eq.trans rfl h

theorem State.setSide_footing (d : Side) (x : SideState) (c : Nat) : (s.setSide d x c).footing = s.footing :=
  State.post_footing _ _ _ _

theorem State.sideDown_footed (d : Side) (c : Nat) : Footed s (s.sideDown d c) := by
  have h : ((s.setSide d .down c).onSide d (fun x => { x with hold := 500 })).footing = s.footing := s.setSide_footing d .down c
  simp only [State.sideDown]
  refine (State.isolatedTest_footed _).after ?_
  split
  · exact (State.emptyQueue_footing _ _).trans h
  · exact h

theorem State.tryTraining_footing (d : Side) : (s.tryTraining d).footing = s.footing := by
  simp only [State.tryTraining]
  split
  · exact s.setSide_footing d .training 1
  · rfl

theorem State.retrain_footing (d : Side) (c : Nat) : (s.retrain d c).footing = s.footing :=
  (State.emptyQueue_footing _ _).trans (s.setSide_footing d .training c)

theorem State.cleanWord_footing (d : Side) : (s.cleanWord d).footing = s.footing := by
  simp only [State.cleanWord]
  split
  · exact State.setSide_footing (s.onSide d fun x => { x with words := x.words + 1 }) d .up 2
  · rfl

theorem State.takeLaneWord_footing (d : Side) (p f c : Byte) : (s.takeLaneWord d p f c).footing = s.footing := by
  simp only [State.takeLaneWord]
  split
  · rfl
  · split
    · rfl
    · split
      · rfl
      · exact s.cleanWord_footing d
  · split
    · rfl
    · split
      · exact s.retrain_footing d 6
      · split
        · exact s.retrain_footing d 5
        · rfl

theorem State.badFrame_footed (d : Side) : Footed s (s.badFrame d) := by
  simp only [State.badFrame]
  split
  · exact (State.sideDown_footed _ d 4).after rfl
  · exact .still rfl

theorem State.deliver_footing (l : Lane) (f : Frame) (x : Stamp) : (s.deliver l f x).footing = s.footing := by
  unfold State.deliver; split <;> rfl

theorem State.forward_footing (l : Lane) (f : Frame) (x : Stamp) : (s.forward l f x).footing = s.footing := by
  unfold State.forward
  split
  · rfl
  · split <;> rfl

theorem State.ownReturn_footing (l : Lane) (f : Frame) : (s.ownReturn l f).footing = s.footing := by
  simp only [State.ownReturn]
  split
  · rfl
  · exact State.post_footing _ _ _ _

theorem State.goodFrame_footing (l : Lane) (f : Frame) (x : Stamp) : (s.goodFrame l f x).footing = s.footing := by
  simp only [State.goodFrame]
  split
  · exact State.ownReturn_footing _ _ _
  · split
    · exact State.deliver_footing _ _ _ _
    · exact (State.deliver_footing _ _ _ _).trans (State.forward_footing _ _ _ _)

theorem State.takeArrival_footed (l : Lane) (c : Bool) (b : List Byte) : Footed s (s.takeArrival l c b) := by
  simp only [State.takeArrival]
  split
  · exact .still rfl
  · split <;> exact .still rfl
  · split
    · split
      · exact .still (State.goodFrame_footing _ _ _ _)
      · exact (State.badFrame_footed _ _).after rfl
    · exact (State.badFrame_footed _ _).after rfl

theorem State.startTransmission_footing (l : Lane) : (s.startTransmission l).footing = s.footing := by
  unfold State.startTransmission
  split
  · split <;> rfl
  · rfl

theorem State.examineLane_footing (l : Lane) : (s.examineLane l).footing = s.footing := by
  simp only [State.examineLane]
  split
  · rfl
  · split
    · exact State.post_footing _ _ _ _
    · rfl

theorem State.examineLanes_footing : s.examineLanes.footing = s.footing := by
  unfold State.examineLanes
  split
  · exact (State.examineLane_footing _ _).trans (State.examineLane_footing _ _)
  · rfl

theorem State.placeOwn_footing (f : Frame) (l : Lane) : (s.placeOwn f l).footing = s.footing := by
  simp only [State.placeOwn]
  split
  · rfl
  · split <;> rfl

theorem State.buildFrame_footing : s.buildFrame.footing = s.footing := by
  unfold State.buildFrame
  split
  · exact (State.placeOwn_footing _ _ _).trans (State.placeOwn_footing _ _ _)
  · rfl

theorem State.failCheck_footed (d : Side) : Footed s (s.failCheck d) := by
  unfold State.failCheck
  split
  · exact (State.badFrame_footed _ d).after rfl
  · exact .refl s

theorem State.loseSignal_footed (d : Side) : Footed s (s.loseSignal d) := by
  simp only [State.loseSignal]
  split
  · split
    · exact .still rfl
    · exact (State.sideDown_footed _ d 3).after rfl
  · exact .refl s

theorem State.gainSignal_footing (d : Side) : (s.gainSignal d).footing = s.footing := by
  unfold State.gainSignal
  split
  · rfl
  · exact State.tryTraining_footing _ d

theorem State.expireHold_footing (d : Side) : (s.expireHold d).footing = s.footing := by
  unfold State.expireHold
  split
  · exact State.tryTraining_footing _ d
  · rfl

/-! ### Acceptance -/

theorem State.takeStopPart_footed (j : Station) (f : Frame) : Footed s (s.takeStopPart j f) := by
  simp only [State.takeStopPart]
  split
  · exact s.request_footed _
  · exact .refl s

theorem State.handOver_footed (j : Station) (c : Copy) (b : Bool) : Footed s (s.handOver j c b) :=
  ((s.takeFrame_footed j c.frame b).trans (State.takeTiming_footed _ j _ _ _)).trans
    ((State.takeOrderPart_footed _ _ j).trans (State.takeStopPart_footed _ j _))

theorem State.reportPath_footing (j : Station) (e : FilterEntry) : (s.reportPath j e).footing = s.footing := by
  unfold State.reportPath
  split
  · exact State.post_footing _ _ _ _
  · rfl

theorem State.countGap_footing (d : Nat) : (s.countGap d).footing = s.footing := by
  unfold State.countGap; split <;> rfl

theorem State.judge_footed (j : Station) (c : Copy) : Footed s (s.judge j c) := by
  simp only [State.judge]
  split
  · exact (State.handOver_footed _ j c _).after rfl
  split
  · unfold State.discardEqual
    split <;> exact .still rfl
  split
  · exact (State.handOver_footed _ j c _).after ((State.countGap_footing _ _).trans (s.reportPath_footing j _))
  · unfold State.takeStale
    split
    · exact .still rfl
    · exact (State.handOver_footed _ j c _).after rfl

theorem State.takeWaiting_footed (n : Nat) : Footed s (s.takeWaiting n) := by
  unfold State.takeWaiting
  split
  · exact .refl s
  · unfold State.takeCopy
    split
    · exact .still rfl
    · exact (State.judge_footed _ _ _).after rfl

/-! ### The servo side -/

theorem State.checkFeedback_footed : Footed s s.checkFeedback := by
  have hr : Footed s s.checkRange := by
    simp only [State.checkRange]
    split
    · exact .refl s
    · split
      · exact (State.requestLocal_footed _ _ _).after rfl
      · exact .still rfl
  have hl : ∀ t : State, Footed t t.checkLoss := by
    intro t
    unfold State.checkLoss
    split
    · exact (State.requestLocal_footed _ _ _).after rfl
    · exact .refl t
  unfold State.checkFeedback
  split
  · exact hr.trans (hl _)
  · exact .refl s

theorem State.readyShown_servo (level : Bool) : (s.readyShown level).servo =
    { s.servo with ready := level, staleRun := if level then 0 else s.servo.staleRun } := State.post_servo _ _ _ _

theorem State.readyShown_run (level : Bool) : (s.readyShown level).run = s.run := State.post_run _ _ _ _

theorem State.readyShown_peers (level : Bool) : (s.readyShown level).peers = s.peers := State.post_peers _ _ _ _

/-- A loss of servo-ready in motion trips the node; elsewhere the READY conditions are tested (R61, R62, R74). -/
theorem State.setReady_footed (level : Bool) : Footed s (s.setReady level) := by
  have hr : (s.readyShown level).run.state = s.run.state := congrArg Run.state (s.readyShown_run level)
  by_cases e : s.servo.ready = level
  · rw [s.setReady_of_eq e]; exact .refl s
  · rw [s.setReady_of_ne e]
    split
    · rename_i h
      have hm : (s.readyShown level).run.state.inMotion = true := by simp_all
      refine .halted ?_
      rw [State.requestLocal, State.request_tripping rfl (fun e => by rw [e] at hm; cases hm) (fun e => by rw [e] at hm; cases hm),
        (State.enterTripped_fields _ _).1]
      simp
    · rename_i h
      refine .tested (fun g e => ?_) fun _ _ e => ?_
      · exact (State.rosterComplete_of_peers (s.readyShown_peers level)).trans (g.2 (hr.symm.trans e)).1
      · rw [State.readyShown_servo]
        simpa [e] using h

theorem State.latchFeedback_footing : s.latchFeedback.footing = s.footing := by
  unfold State.latchFeedback; split <;> rfl

theorem State.receiveWord_footing (bits : List Bool) : (s.receiveWord bits).footing = s.footing := by
  simp only [State.receiveWord]
  split <;> rfl

/-! ### A cycle boundary -/

theorem State.act_footed (a : BoundaryAction) : Footed s (s.act a) := by
  cases a with
  | servoChecks => exact s.checkFeedback_footed
  | rampStep => exact s.stepRamps_footed
  | assemblyTest => exact s.assemblyTest_footed
  | countdownCheck => exact s.countdownCheck_footed
  | orders => exact s.takeDueOrders_footed
  | trim => exact .still s.computeTrim_footing
  | peerMiss j => exact s.countMiss_footed j
  | ringClosure => exact .still s.examineLanes_footing
  | isolated => exact s.isolatedTest_footed
  | frameBuild => exact .still s.buildFrame_footing

theorem State.countPulse_footing : s.countPulse.footing = s.footing := by
  obtain ⟨m, n, b, e⟩ := s.countPulse_frame
  rw [e]
  rfl

theorem State.boundary_footed (first : List BoundaryAction) : Footed s (s.boundary first) := by
  have h : s.opened.footing = s.footing := (State.countPulse_footing _).trans ((State.latchFeedback_footing _).trans rfl)
  exact (Footed.foldl State.act State.act_footed _ _).after h

/-! ### An output instant -/

theorem State.runMarker_footed (k : Nat) (m : MarkerSlot) (r : PosRecord) : Footed s (s.runMarker k m r) := by
  unfold State.runMarker
  split
  · exact .still rfl
  · split
    · exact s.originate_footed _ _ _ nofun
    · exact .still (s.post_footing _ _ _)
  · exact .refl s

theorem State.evaluateMarkers_footed (r : PosRecord) : Footed s (s.evaluateMarkers r) := by
  unfold State.evaluateMarkers
  refine .foldl _ (fun t x => ?_) _ s
  split
  · exact (State.runMarker_footed _ _ _ _).after (t.post_footing _ _ _)
  · exact .refl t

theorem State.report_footed (f : InstantFacts) (r : InstantReport) : Footed s (s.report f r) := by
  cases r with
  | coupling =>
    simp only [State.report]
    split
    · exact .refl s
    · exact .still (s.post_footing _ _ _)
  | segment =>
    simp only [State.report]
    split
    · exact .refl s
    · split
      · exact .refl s
      · split
        · exact (State.requestLocal_footed _ _ _).after (s.post_footing _ _ _)
        · exact .still (s.post_footing _ _ _)
  | underrun =>
    simp only [State.report]
    split
    · exact .refl s
    · split
      · exact s.requestLocal_footed _ _
      · exact .refl s
  | markers =>
    simp only [State.report]
    split
    · exact .refl s
    · split
      · exact s.evaluateMarkers_footed _
      · exact .refl s
  | late j =>
    simp only [State.report]
    split
    · exact (State.requestLocal_footed _ _ _).after rfl
    · exact .refl s

/-- A position is consumed in the playing states alone, where no READY condition is held (R43). -/
theorem State.consume_footed : Footed s s.consume.1 := by
  by_cases hp : s.run.state.playing = true
  · obtain ⟨c, n, e⟩ := s.consume_frame
    rw [e]
    exact .passed (fun h => by rw [h] at hp; cases hp) (fun h => by rw [h] at hp; cases hp) fun h => ⟨h, rfl⟩
  · rw [State.consume_of_not_playing (Bool.eq_false_iff.mpr hp)]
    exact .refl s

theorem State.updateHoldRuns_footing (n : Nat) : (s.updateHoldRuns n).footing = s.footing := by
  unfold State.updateHoldRuns
  refine foldl_keeps State.footing _ (fun u j => ?_) stations s
  split
  · exact u.onPeer_footing_of_eq j (fun _ => rfl) fun _ => rfl
  · rfl

theorem State.computeDrive_footing (x : Int) : (s.computeDrive x).footing = s.footing := by
  obtain ⟨v, e⟩ := State.computeDrive_frame x s
  rw [e]
  rfl

theorem State.driveInstant_footing (r : RunState) (k : Option Taken) (n : Word) : (s.driveInstant r k n).footing = s.footing := by
  have hu : ∀ m, (if r.coupling then s.updateHoldRuns m else s).footing = s.footing := fun m => by
    split
    · exact s.updateHoldRuns_footing m
    · rfl
  simp only [State.driveInstant]
  split
  · exact (State.computeDrive_footing _ _).trans (hu _)
  · exact hu _

theorem State.serve_footing (q : Option ApplyRequest) : (s.serve q).footing = s.footing := by cases q <;> rfl

theorem State.instantFacts_footed : Footed s s.instantFacts.1 := by
  rw [State.instantFacts_fst]
  exact (s.consume_footed.then (State.serve_footing _ _)).then (State.driveInstant_footing _ _ _ _)

theorem State.actInstant_footed (first : List InstantReport) : Footed s (s.actInstant first) := by
  have h : Footed s (s.reported first) := s.instantFacts_footed.trans (.foldl _ (fun t r => t.report_footed _ r) _ _)
  rw [State.actInstant_eq]
  split
  · exact h.then (State.fetch_footing _)
  · exact h

theorem State.takeInstant_footed (first : List InstantReport) : Footed s (s.takeInstant first) :=
  (State.actInstant_footed _ first).after rfl

theorem State.instant_footed (first : List InstantReport) : Footed s (s.instant first) := by
  unfold State.instant
  split
  · exact .refl s
  · exact (State.takeInstant_footed _ first).after rfl

theorem State.endCycle_footed (first : List BoundaryAction) : Footed s (s.endCycle first) :=
  (s.instant_footed []).trans ((State.boundary_footed _ first).after rfl)

/-- The event that falls together with a STOP (R88, R89). -/
theorem State.happens_footed (e : Together) : Footed s (s.happens e) := by
  cases e with
  | boundary first => exact s.endCycle_footed first
  | instant first => exact s.instant_footed first
  | copy n => exact s.takeWaiting_footed n
  | servoReady level => exact s.setReady_footed level
  | signalLost d => exact s.loseSignal_footed d
  | frameCheckDown d => exact s.failCheck_footed d

end Sys2Proof.Machine

namespace Sys2Proof.Machine

/-! ### The drive store -/

/-- The READY test behind a burst (R74). -/
theorem Footed.afterBurst {s t : State} (hr : t.run.state = s.run.state) (hs : t.servo = s.servo) (hp : t.peers = s.peers) :
    Footed s t.afterBurst := by
  obtain ⟨b, a, e⟩ := t.fetch_frame
  unfold State.afterBurst
  rw [e]
  exact .retested hr hs hp

theorem State.sampleCompletion_footed (s : State) : Footed s s.sampleCompletion := by
  unfold State.sampleCompletion
  split
  · unfold State.completeSamples
    dsimp only
    split <;> exact .afterBurst rfl rfl rfl
  · exact .refl s

theorem State.shapeCompletion_footed (s : State) : Footed s s.shapeCompletion := by
  unfold State.shapeCompletion
  split
  · simp only [State.completeShape]
    split <;> exact .afterBurst rfl rfl rfl
  · exact .refl s

theorem State.writeCompletion_footing (s : State) : s.writeCompletion.footing = s.footing := by
  unfold State.writeCompletion
  split <;> rfl

theorem State.readCompletion_footing (s : State) : s.readCompletion.footing = s.footing := by
  unfold State.readCompletion
  split <;> rfl

/-! ### The supervisor port -/

theorem State.finish_footed (x : Status) (w : List Word) (s : State) : Footed s (s.finish x w) := .still rfl

theorem State.takeCommand_footed (code : Nat) (tag : Byte) (args : List Word) {owner : State → State}
    (h : ∀ u, Footed u (owner u)) (s : State) : Footed s (s.takeCommand code tag args owner) := by
  unfold State.takeCommand
  dsimp only
  split
  · exact .still rfl
  · exact (h _).after rfl

theorem withCount_footed (n : Nat) (args : List Word) {owner : State → State} (h : ∀ u, Footed u (owner u)) (s : State) :
    Footed s (withCount n args owner s) := by
  unfold withCount
  split
  · exact h s
  · exact s.finish_footed _ _

theorem inStates_footed (l : List RunState) {owner : State → State} (h : ∀ u, u.run.state ∈ l → Footed u (owner u)) (s : State) :
    Footed s (inStates l owner s) := by
  unfold inStates
  split
  · exact h s ‹_›
  · exact s.finish_footed _ _

theorem withRanges_footed (tests : List Bool) {owner : State → State} (s : State) (h : Footed s (owner s)) :
    Footed s (withRanges tests owner s) := by
  unfold withRanges
  split
  · exact s.finish_footed _ _
  · exact h

/-- The READY test behind a flush of a changed schedule (R36, R74). -/
theorem Footed.flushed {s t : State} (hr : t.run.state = s.run.state) (hs : t.servo = s.servo) (hp : t.peers = s.peers) :
    Footed s (t.fetch.readyTest.finish .ok []) := by
  have h : Footed s t.fetch.readyTest := by
    obtain ⟨b, a, e⟩ := t.fetch_frame
    rw [e]
    exact .retested hr hs hp
  exact h.trans (State.finish_footed _ _ _)

theorem State.appendSegment_footed (args : List Word) (s : State) : Footed s (s.appendSegment args) := by
  unfold State.appendSegment
  split
  · exact s.finish_footed _ _
  · split
    · exact s.finish_footed _ _
    · split
      · exact s.finish_footed _ _
      · exact .flushed rfl rfl rfl

theorem State.discardSchedule_footed (s : State) : Footed s s.discardSchedule := .flushed rfl rfl rfl

theorem State.seekRepeat_footed (args : List Word) (s : State) : Footed s (s.seekRepeat args) := by
  unfold State.seekRepeat
  split
  · split
    · exact .flushed rfl rfl rfl
    · exact s.finish_footed _ _
  · exact s.finish_footed _ _

theorem State.writePage_footed (args : List Word) (s : State) : Footed s (s.writePage args) := by
  unfold State.writePage
  split
  · exact s.finish_footed _ _
  · exact withRanges_footed _ s (.still rfl)

theorem State.readPage_footed (args : List Word) (s : State) : Footed s (s.readPage args) := withRanges_footed _ s (.still rfl)

theorem State.writeConfig_footing (args : List Word) (s : State) : (s.writeConfig args).footing = s.footing := by
  unfold State.writeConfig
  split
  · rfl
  · split
    · rfl
    · split <;> rfl

theorem State.writeCoupling_footing (args : List Word) (s : State) : (s.writeCoupling args).footing = s.footing := by
  unfold State.writeCoupling
  split
  · rfl
  · split
    · rfl
    · split <;> rfl

theorem State.applyCoupling_footing (args : List Word) (s : State) : (s.applyCoupling args).footing = s.footing := by
  unfold State.applyCoupling; split <;> rfl

theorem State.commandOrder_footed (k : OrderKind) (a b : Nat) (s : State) (hk : k = .start → s.run.state = .ready) :
    Footed s (s.commandOrder k a b) := by
  unfold State.commandOrder
  split
  · exact (s.originate_footed k a b hk).trans (State.finish_footed _ _ _)
  · exact s.finish_footed _ _

theorem orderOwner_footed (n : Nat) (args : List Word) (l : List RunState) (k : OrderKind) (b : Nat)
    (hk : k = .start → l = [.ready]) (s : State) : Footed s (orderOwner n args l k b s) := by
  refine withCount_footed n args (fun _ => inStates_footed l (fun v hv => withRanges_footed _ v (v.commandOrder_footed k _ b ?_)) _) s
  intro e
  rw [hk e] at hv
  exact List.mem_singleton.mp hv

theorem State.readEvent_footing (s : State) : s.readEvent.footing = s.footing := by
  unfold State.readEvent; split <;> rfl

theorem State.readTable_footing (n k : Nat) (s : State) : (s.readTable n k).footing = s.footing := by
  have ht : ∀ (m : Nat) (f : Station → List Word), (s.stationTable m f).footing = s.footing := fun m f => by
    unfold State.stationTable; split <;> rfl
  have ha : ∀ x : Option (List Word), (s.answerRecord x).footing = s.footing := fun x => by
    unfold State.answerRecord; split <;> rfl
  unfold State.readTable
  split
  case h_1 | h_2 | h_3 | h_5 => exact ht _ _
  case h_4 | h_6 =>
    split
    · exact ha _
    · rfl
  case h_7 => split <;> rfl
  case h_8 => rfl

theorem State.malformedCommand_footing (x : Bool) (b : List Byte) (s : State) : (s.malformedCommand x b).footing = s.footing := by
  unfold State.malformedCommand; split <;> rfl

theorem State.stopCommand_footed (e : Option Together) (s : State) : Footed s (s.stopCommand e) := by
  have h : ∀ t : State, Footed t ((t.requestLocal .operator t.ownNumber).finish .ok []) := fun t =>
    (t.requestLocal_footed _ _).trans (State.finish_footed _ _ _)
  cases e with
  | none => exact h s
  | some e => exact (s.happens_footed e).trans (h _)

theorem State.leaveStop_footed (s : State) : Footed s s.leaveStop := by
  unfold State.leaveStop
  split
  · exact s.enterStandby_footed ‹_›
  · exact .halted (by simp)

/-- A node that leaves STOPPED or TRIPPED with a complete roster tests the READY conditions (R95, R96). -/
theorem State.clearCommand_footed (s : State) : Footed s s.clearCommand := by
  have hl : ∀ t : State, Footed t (t.clearEpisode.leaveStop.finish .ok []) := fun t =>
    ((State.leaveStop_footed t.clearEpisode).after (s := t) rfl).trans (State.finish_footed _ _ _)
  unfold State.clearCommand
  split
  · exact hl s
  · unfold State.clearTripped
    split
    · exact (hl _).after (State.fetch_footing (s.release.setHold false))
    · exact s.finish_footed _ _
  · exact s.finish_footed _ _

/-- GO ONLINE leads to ASSEMBLY (R72). -/
theorem State.goOnline_state (s : State) : s.goOnline.run.state = .assembly := by
  have hc : ∀ t : State, t.clearOwnCoefficients.run = t.run := fun t => by unfold State.clearOwnCoefficients; split <;> rfl
  obtain ⟨v, e, -⟩ := (s.changeState .assembly).presented.clearOwnCoefficients.takeRate.takeRoster_get
  rw [State.goOnline_eq, e]
  exact congrArg Run.state (hc _)

theorem State.tryOnline_footed (s : State) : Footed s s.tryOnline := by
  unfold State.tryOnline
  split
  · exact s.finish_footed _ _
  · refine .halted ?_
    show s.goOnline.run.state ∈ _
    rw [s.goOnline_state]
    simp

/-! ### A whole step -/

theorem State.whileRunning_footed {f : State → State} (h : ∀ u, Footed u (f u)) (s : State) : Footed s (s.whileRunning f) := by
  unfold State.whileRunning
  split
  · exact ((h s.settle).after (s := s) rfl).then (u := (f s.settle).settle) rfl
  · exact .refl s

theorem State.whileRunning_footing {f : State → State} (h : ∀ u, (f u).footing = u.footing) (s : State) :
    Footed s (s.whileRunning f) := s.whileRunning_footed fun u => .still (h u)

theorem State.bringing_footed (x : Happening) {f : State → State} (h : ∀ u, Footed u (f u)) (u : State) :
    Footed u (u.bringing x f) := by
  unfold State.bringing
  split
  · exact h u
  · exact .refl u

theorem State.command_footed (code : Nat) (tag : Byte) (args : List Word) {owner : State → State} (h : ∀ u, Footed u (owner u))
    (s : State) : Footed s (s.command code tag args owner) :=
  State.whileRunning_footed (State.takeCommand_footed code tag args h) s

/-- A command with its number of arguments (R202). -/
theorem State.counted_footed (code n : Nat) (tag : Byte) (args : List Word) {owner : State → State} (h : ∀ u, Footed u (owner u))
    (s : State) : Footed s (s.command code tag args (withCount n args owner)) :=
  s.command_footed code tag args (withCount_footed n args h)

/-- A reset leaves the part in OFFLINE (R68, R209). -/
theorem State.resetBlocks_footed (c : Condition) (s u : State) : Footed s (u.resetBlocks c) := .halted List.mem_cons_self

theorem State.clockEdge_footed (s : State) : Footed s s.clockEdge := by
  have hc : ∀ u : State, Footed u u.advanceClock := fun u => by
    unfold State.advanceClock
    split
    · exact u.boundary_footed []
    · dsimp only
      split
      · exact (State.takeInstant_footed _ _).after rfl
      · exact .still rfl
  have he : ∀ (b : State) (d : Side) (u : State), (State.expireIfLast b d u).footing = u.footing := fun b d u => by
    unfold State.expireIfLast
    split
    · exact u.expireHold_footing d
    · rfl
  unfold State.clockEdge
  split
  · exact .refl s
  · exact .refl s
  · split <;> exact .still rfl
  · refine s.whileRunning_footed fun u => ?_
    unfold State.runEdge
    split
    · exact State.resetBlocks_footed _ _ _
    · exact (hc u).then ((he _ _ _).trans (he _ _ _))

/-- Every command keeps the READY law, and with it the law of motion. -/
theorem exec_footed {t : State} (c : Instr) (s : State) (h : exec c s = .next t) : Footed s t := by
  have hr : ∀ {a : State}, Host.Outcome.next (φ := Fault) (ρ := Refusal) a = .next t → Footed s a → Footed s t := by
    rintro a h g; cases h; exact g
  have hcycle : ∀ x first, Footed s (s.whileRunning (State.bringing x (State.endCycle first))) := fun x first =>
    s.whileRunning_footed (State.bringing_footed x fun u => u.endCycle_footed first)
  have hcopy : ∀ x n, Footed s (s.whileRunning (State.bringing x (State.takeWaiting n))) := fun x n =>
    s.whileRunning_footed (State.bringing_footed x fun u => u.takeWaiting_footed n)
  cases c with
  | powerOnReset => exact hr h (State.resetBlocks_footed _ _ _)
  | resetRelease =>
    refine hr h ?_
    split <;> exact .still rfl
  | resetNodeTakesEffect =>
    refine hr h ?_
    split
    · exact State.resetBlocks_footed _ _ _
    · exact .refl s
  | resetNodeEnd =>
    refine hr h ?_
    split <;> exact .still rfl
  | cycleBoundary first => exact hr h (s.whileRunning_footed fun u => u.endCycle_footed first)
  | outputInstant first => exact hr h (s.whileRunning_footed fun u => u.instant_footed first)
  | feedbackWord straddles bits =>
    refine hr h ?_
    split
    · exact .refl s
    · exact s.whileRunning_footing fun u => u.receiveWord_footing bits
  | servoReady level => exact hr h (s.whileRunning_footed fun u => u.setReady_footed level)
  | signalPresent d => exact hr h (s.whileRunning_footing fun u => u.gainSignal_footing d)
  | signalLost d => exact hr h (s.whileRunning_footed fun u => u.loseSignal_footed d)
  | downHoldExpiry d => exact hr h (s.whileRunning_footing fun u => u.expireHold_footing d)
  | laneWord d p f c => exact hr h (s.whileRunning_footing fun u => u.takeLaneWord_footing d p f c)
  | sideTrained d =>
    refine hr h (s.whileRunning_footing fun u => ?_)
    split
    · exact u.cleanWord_footing d
    · rfl
  | frameArrival l c b => exact hr h (s.whileRunning_footed fun u => u.takeArrival_footed l c b)
  | frameCheckDown d => exact hr h (s.whileRunning_footed fun u => u.failCheck_footed d)
  | transmitStart l n => exact hr h (s.whileRunning_footing fun u => State.startTransmission_footing (u.elapseWithin n) l)
  | deliveryCopyTaken n => exact hr h (s.whileRunning_footed fun u => u.takeWaiting_footed n)
  | resynchronisation n => exact hr h (hcopy _ n)
  | pathDegraded n => exact hr h (hcopy _ n)
  | stepLoss n => exact hr h (hcopy _ n)
  | feedbackLoss first => exact hr h (hcycle _ first)
  | rampEndReport first => exact hr h (hcycle _ first)
  | assemblyComplete first => exact hr h (hcycle _ first)
  | peerSilent first j => exact hr h (hcycle _ first)
  | ringOpen first l => exact hr h (hcycle _ first)
  | markerPulseEnd first => exact hr h (hcycle _ first)
  | peerLate first j => exact hr h (s.whileRunning_footed (State.bringing_footed _ fun u => u.instant_footed first))
  | sampleBurstCompletion => exact hr h (s.whileRunning_footed State.sampleCompletion_footed)
  | shapeLoadBurstCompletion => exact hr h (s.whileRunning_footed State.shapeCompletion_footed)
  | writeChunkCompletion => exact hr h (s.whileRunning_footing State.writeCompletion_footing)
  | readChunkCompletion => exact hr h (s.whileRunning_footing State.readCompletion_footing)
  | malformedTransaction x b => exact hr h (s.whileRunning_footing (State.malformedCommand_footing x b))
  | readReply n => exact hr h (s.whileRunning_footing (f := State.readReply n) fun _ => rfl)
  | getStatus tag args => exact hr h (s.counted_footed _ 0 tag args fun u => u.finish_footed _ _)
  | writeConfig tag args => exact hr h (s.command_footed _ tag args fun u => .still (u.writeConfig_footing args))
  | goOnline tag args => exact hr h (s.counted_footed _ 0 tag args (inStates_footed _ fun u _ => u.tryOnline_footed))
  | writePage tag args => exact hr h (s.command_footed _ tag args (State.writePage_footed args))
  | readPage tag args => exact hr h (s.counted_footed _ 3 tag args (State.readPage_footed args))
  | appendSegment tag args => exact hr h (s.counted_footed _ 8 tag args (State.appendSegment_footed args))
  | discardSchedule tag args => exact hr h (s.counted_footed _ 0 tag args (inStates_footed _ fun u _ => u.discardSchedule_footed))
  | seekRepeat tag args => exact hr h (s.counted_footed _ 1 tag args (inStates_footed _ fun u _ => u.seekRepeat_footed args))
  | writeCoupling tag args => exact hr h (s.counted_footed _ 2 tag args fun u => .still (u.writeCoupling_footing args))
  | applyCoupling tag args => exact hr h (s.counted_footed _ 1 tag args fun u => .still (u.applyCoupling_footing args))
  | start tag args => exact hr h (s.command_footed _ tag args (orderOwner_footed 2 args _ .start _ fun _ => rfl))
  | pause tag args => exact hr h (s.command_footed _ tag args (orderOwner_footed 1 args _ .pause _ nofun))
  | resume tag args => exact hr h (s.command_footed _ tag args (orderOwner_footed 1 args _ .resume _ nofun))
  | setLevel tag args => exact hr h (s.command_footed _ tag args (orderOwner_footed 2 args _ .level _ nofun))
  | stop tag arrival =>
    exact hr h (s.counted_footed _ 0 tag arrival.words (inStates_footed _ fun u _ => u.stopCommand_footed arrival.ahead))
  | clear tag args => exact hr h (s.counted_footed _ 0 tag args State.clearCommand_footed)
  | readEvent tag args => exact hr h (s.counted_footed _ 0 tag args fun u => .still u.readEvent_footing)
  | readTable tag args => exact hr h (s.counted_footed _ 2 tag args fun u => .still (u.readTable_footing _ _))
  | clearCounters tag args => exact hr h (s.counted_footed _ 0 tag args (owner := State.clearCounters) fun _ => .still rfl)
  | resetNode tag args => exact hr h (s.counted_footed _ 0 tag args (owner := State.resetNode) fun _ => .still rfl)
  | arrivalStamp l n => exact hr h (s.whileRunning_footing (f := State.stampArrival l n) fun _ => rfl)
  | transmissionEnd l => exact hr h (s.whileRunning_footing fun u => (rfl : (u.onLane l _).footing = u.footing))
  | powerLoss => exact hr h (.still rfl)

/-- Every step keeps the READY law, and with it the law of motion. -/
theorem step_footed {s t : State} (h : step s = .next t) : Footed s t := by
  unfold step at h
  split at h
  · cases h; exact s.clockEdge_footed
  · exact (exec_footed _ _ h).after rfl

/-- Settles O54: whatever changes a READY condition tests them or has left READY and STANDBY, and only READY enters motion. -/
theorem stepKeepsReadyLaw : Obligations.StepKeepsReadyLaw := fun _ _ hs h =>
  ⟨(step_footed h).ready hs, (step_footed h).motion hs⟩

end Sys2Proof.Machine

namespace Sys2Proof.Machine

variable {s : State}

/-! ### A feedback word (R54, R68) -/

/-- The first k bits of a word, most significant first, read as its upper k bits. -/
theorem bitsValue_msb_upper {w : Nat} (x : BitVec w) {k : Nat} (h : k ≤ w) :
    bitsValue ((List.range k).map fun i => x.getMsbD i) = x.toNat / 2 ^ (w - k) := by
  induction k with
  | zero => simp [bitsValue, Nat.div_eq_of_lt x.isLt]
  | succ k ih =>
    have hk : k < w := h
    have hd : x.toNat / 2 ^ (w - k) = x.toNat / 2 ^ (w - (k + 1)) / 2 := by
      rw [Nat.div_div_eq_div_mul, ← pow_succ, show w - (k + 1) + 1 = w - k by omega]
    have hb : x.getMsbD k = decide (x.toNat / 2 ^ (w - (k + 1)) % 2 = 1) := by
      rw [BitVec.getMsbD_eq_getLsbD, BitVec.getLsbD, Nat.testBit_eq_decide_div_mod_eq, decide_eq_true hk, Bool.true_and,
        show w - 1 - k = w - (k + 1) by omega]
    have hs : bitsValue ((List.range (k + 1)).map fun i => x.getMsbD i) =
        2 * bitsValue ((List.range k).map fun i => x.getMsbD i) + (if x.getMsbD k then 1 else 0) := by
      simp [bitsValue, List.range_succ]
    rw [hs, ih hk.le, hd, hb]
    generalize x.toNat / 2 ^ (w - (k + 1)) = n
    rcases Nat.mod_two_eq_zero_or_one n with e | e <;> simp [e] <;> omega

/-- A word sent most significant bit first is read as itself (R54). -/
theorem bitsValue_msb {w : Nat} (x : BitVec w) : bitsValue ((List.range w).map fun i => x.getMsbD i) = x.toNat := by
  simpa using bitsValue_msb_upper x le_rfl

theorem State.feedbackWord_exec (h : s.cond = .running) (bits : List Bool) :
    exec (.feedbackWord false bits) s = .next (s.settle.receiveWord bits).settle :=
  congrArg Host.Outcome.next (State.whileRunning_eq h _)

/-- Settles O24: the bits of a whole word read as the word; any other number of bits is bad framing. -/
theorem feedbackWordIsReceived : Obligations.FeedbackWordIsReceived := by
  refine ⟨fun s x h => ?_, fun s bits h hb => ?_, fun s bits => rfl⟩
  · have hl : ((List.range 24).map fun k => x.getMsbD k).length = 24 := by simp
    rw [State.feedbackWord_exec h, State.receiveWord, if_pos hl, bitsValue_msb, BitVec.ofNat_toNat, BitVec.setWidth_eq, hl]
    rfl
  · rw [State.feedbackWord_exec h, State.receiveWord, if_neg hb]
    rfl

/-! ### The output lines (R63 to R68) -/

/-- A part that does not run sends no lane word (R174). -/
theorem State.laneWordSent_of_not_running (h : s.running = false) (d : Side) : s.laneWordSent d = none := by
  unfold State.laneWordSent
  simp [h]

/-- Settles O5: the levels of every line, condition by condition. -/
theorem outputLinesInEveryCondition : Obligations.OutputLinesInEveryCondition := by
  have hn : ∀ s : State, s.cond ≠ .running → s.running = false := fun s h => by simpa [State.running] using h
  refine ⟨fun s => rfl, fun s h => ?_, fun s h => ?_, fun s h => ?_⟩
  · have hr := hn s (by rw [h]; decide)
    refine ⟨?_, ?_, ?_, ?_, State.laneWordSent_of_not_running hr⟩
    · rw [State.commandLines, h]
    · rw [State.tripNHigh, h]
    · rw [State.markHigh, hr]; rfl
    · rw [State.attnNHigh, hr]; rfl
  · have hr := hn s (by rcases h with h | ⟨e, h⟩ <;> rw [h] <;> exact Condition.noConfusion)
    refine ⟨?_, ?_, ?_, ?_, State.laneWordSent_of_not_running hr⟩
    · rcases h with h | ⟨e, h⟩ <;> rw [State.commandLines, h]
    · rcases h with h | ⟨e, h⟩ <;> rw [State.tripNHigh, h]
    · rw [State.markHigh, hr]; rfl
    · rw [State.attnNHigh, hr]; rfl
  · have hr := State.running_of_cond h
    refine ⟨?_, ?_, ?_, ?_⟩
    · rw [State.commandLines, h]
    · rw [State.tripNHigh, h]
    · rw [State.markHigh, hr, Bool.true_and]
    · rw [State.attnNHigh, hr, Bool.true_and, Bool.not_not]

end Sys2Proof.Machine

namespace Sys2Proof.Machine

variable {s t u : State}

/-! ### What acts post (R204) -/

/-- From s to t events have only been posted: new records stand behind the old ones, and a full queue takes none and loses none of
the count of those it dropped. -/
structure Posted (s t : State) : Prop where
  events : ∃ more, t.port.events = s.port.events ++ more
  full : 32 ≤ s.port.events.length →
    t.port.events = s.port.events ∧ min 4294967295 (s.counter .eventOverflow) ≤ t.counter .eventOverflow

theorem Posted.trans (h : Posted s t) (g : Posted t u) : Posted s u where
  events := by
    obtain ⟨a, ha⟩ := h.events
    obtain ⟨b, hb⟩ := g.events
    exact ⟨a ++ b, by rw [hb, ha, List.append_assoc]⟩
  full := fun hs => by
    obtain ⟨h1, h2⟩ := h.full hs
    obtain ⟨g1, g2⟩ := g.full (by rwa [h1])
    exact ⟨g1.trans h1, by omega⟩

/-- An act that leaves the supervisor port. -/
theorem Posted.still (h : t.port = s.port) : Posted s t := by
  have hc : t.counter .eventOverflow = s.counter .eventOverflow := by unfold State.counter; rw [h]
  exact ⟨⟨[], by rw [h, List.append_nil]⟩, fun _ => ⟨by rw [h], by omega⟩⟩

theorem State.bump_posted (c : Counter) (s : State) : Posted s (s.bump c) := by
  refine ⟨⟨[], (List.append_nil _).symm⟩, fun _ => ⟨rfl, ?_⟩⟩
  by_cases h : Counter.eventOverflow.place = c.place
  · have hb : (s.bump c).counter .eventOverflow = saturate32 (s.counter .eventOverflow) 1 := by
      have := s.bump_counter c
      unfold State.counter at this ⊢
      rwa [h]
    rw [hb, saturate32]
    omega
  · rw [show (s.bump c).counter .eventOverflow = s.counter .eventOverflow from s.count_counter_other _ _ 1 h]
    omega

theorem State.post_posted (k : EventKind) (a b : Word) (s : State) : Posted s (s.post k a b) := by
  rcases s.post_cases k a b with ⟨h, e⟩ | ⟨-, e⟩ <;> rw [e]
  · exact ⟨⟨_, rfl⟩, fun g => absurd h (by omega)⟩
  · exact s.bump_posted _

theorem State.changeState_posted (r : RunState) (s : State) : Posted s (s.changeState r) :=
  (s.post_posted _ _ _).trans (.still rfl)

theorem State.readyTest_posted (s : State) : Posted s s.readyTest := by
  rcases s.readyTest_cases with e | ⟨-, e⟩ | ⟨-, r, -, e⟩ <;> rw [e]
  · exact .still rfl
  · exact s.changeState_posted _
  · exact s.changeState_posted r

theorem State.rewind_port (s : State) : s.rewind.port = s.port := by
  have hf : ∀ u : State, u.fetch.port = u.port := fun u => by
    obtain ⟨b, a, e⟩ := u.fetch_frame
    rw [e]
  unfold State.rewind
  split <;> exact hf _

theorem State.enterTripped_posted (q : StopRequest) (s : State) : Posted s (s.enterTripped q) := by
  have ht : Posted s (s.taken q) := (s.bump_posted _).trans (State.post_posted _ _ _ _)
  have hg : ∀ t : State, t.port = (s.taken q).port →
      Posted s ((((t.setStopField q).changeState .tripped).freeze).setHold true).rewind := fun t e =>
    ((ht.trans (.still e)).trans (.still (t := t.setStopField q) rfl)).trans
      ((State.changeState_posted _ _).trans (.still (State.rewind_port _)))
  unfold State.enterTripped
  dsimp only
  split
  · exact hg _ rfl
  · exact hg _ rfl

/-! ### SERVO READY (R60 to R62) -/

/-- The record of a change of servo-ready (R205). -/
def State.readyEvent (level : Bool) (s : State) : Event :=
  { kind := .servoReady, cycle := s.time.cycle, detail1 := if level then 1 else 0, detail2 := s.time.cycle }

theorem State.readyShown_room (level : Bool) (h : s.port.events.length < 32) :
    (s.readyShown level).port.events = s.port.events ++ [s.readyEvent level] := by
  exact State.post_appended _ _ _ h

theorem State.readyShown_full (level : Bool) (h : 32 ≤ s.port.events.length) :
    (s.readyShown level).port.events = s.port.events ∧
      (s.readyShown level).counter .eventOverflow = min 4294967295 (s.counter .eventOverflow + 1) := by
  unfold State.readyShown
  rcases State.post_cases (s := { s with servo := { s.servo with
    ready := level, staleRun := if level then 0 else s.servo.staleRun } }) .servoReady (flagWord level) s.time.cycle
    with ⟨g, -⟩ | ⟨-, e⟩
  · exact absurd h (Nat.not_le.mpr g)
  · rw [e]
    exact ⟨rfl, State.bump_counter _ _⟩

/-- What a change of servo-ready leaves: the servo side and the port alone. -/
theorem State.readyShown_frame (level : Bool) (s : State) : ∃ es cs, s.readyShown level = { s with
    servo := { s.servo with ready := level, staleRun := if level then 0 else s.servo.staleRun }
    port := { s.port with events := es, counters := cs } } := by
  unfold State.readyShown
  rcases State.post_cases (s := { s with servo := { s.servo with
    ready := level, staleRun := if level then 0 else s.servo.staleRun } }) .servoReady (flagWord level) s.time.cycle
    with ⟨-, e⟩ | ⟨-, e⟩ <;> rw [e]
  · exact ⟨_, s.port.counters, rfl⟩
  · exact ⟨s.port.events, _, rfl⟩

/-- Outside STANDBY and READY there is no READY test, and STANDBY without servo-ready stands (R74). -/
theorem State.readyTest_of_unready (hr : s.run.state ≠ .ready) (h : s.run.state = .standby → s.servo.ready = false) :
    s.readyTest = s := by
  unfold State.readyTest
  split
  case h_1 hs => rw [if_neg (by simp [State.readyConditions, h hs])]
  case h_2 hs => exact absurd hs hr
  case h_3 => rfl

/-- READY without servo-ready returns to STANDBY, the roster complete (R61, R74). -/
theorem State.readyTest_of_loss (hr : s.run.state = .ready) (hc : s.rosterComplete = true) (h : s.servo.ready = false) :
    s.readyTest = s.changeState .standby := by
  unfold State.readyTest
  rw [hr]
  dsimp only
  rw [if_neg (by simp [hc]), if_neg (by simp [State.readyConditions, h])]

theorem State.servoReady_exec (h : s.cond = .running) (level : Bool) :
    exec (.servoReady level) s = .next (s.settle.setReady level).settle :=
  congrArg Host.Outcome.next (State.whileRunning_eq h _)

/-- Whatever a change of servo-ready brings stands behind its own record (log 13). -/
theorem State.setReady_posted {level : Bool} (h : s.servo.ready ≠ level) : Posted (s.readyShown level) (s.setReady level) := by
  rw [s.setReady_of_ne h]
  split
  · rename_i hm
    rw [State.requestLocal, State.request_tripping rfl (fun e => by rw [e] at hm; simp [RunState.inMotion] at hm)
      (fun e => by rw [e] at hm; simp [RunState.inMotion] at hm)]
    exact Posted.trans (.still (t := (s.readyShown level).countFurther) rfl) (State.enterTripped_posted _ _)
  · exact State.readyTest_posted _

/-- Beside motion a change of servo-ready brings the READY test alone (R61). -/
theorem State.setReady_tests {level : Bool} (h : s.servo.ready ≠ level) (hm : level = true ∨ s.run.state.inMotion = false) :
    s.setReady level = (s.readyShown level).readyTest := by
  rw [s.setReady_of_ne h, State.readyShown_run, if_neg (by rcases hm with e | e <;> simp [e])]

/-- A change of servo-ready that sends no request and moves no run state (R60). -/
theorem State.setReady_idle {level : Bool} (h : s.servo.ready ≠ level) (hm : level = true ∨ s.run.state.inMotion = false)
    (hr : s.run.state ≠ .ready) (hs : s.run.state = .standby → level = false) : s.setReady level = s.readyShown level := by
  rw [State.setReady_tests h hm]
  refine State.readyTest_of_unready (by rwa [State.readyShown_run]) fun e => ?_
  rw [State.readyShown_servo]
  exact hs (by rwa [State.readyShown_run] at e)

/-- A loss of servo-ready in motion (R62, R85). -/
theorem State.setReady_trips (h : s.servo.ready = true) (hm : s.run.state.inMotion = true) :
    s.setReady false = (s.readyShown false).countFurther.enterTripped
      ((s.readyShown false).localRequest .servoNotReady (s.readyShown false).ownNumber) := by
  have hr := s.readyShown_run false
  rw [s.setReady_of_ne (by simp [h]), if_pos (by rw [hr, hm]; rfl), State.requestLocal]
  exact State.request_tripping rfl (fun e => by rw [hr] at e; rw [e] at hm; cases hm)
    (fun e => by rw [hr] at e; rw [e] at hm; cases hm)

/-- What a change of servo-ready beside motion leaves (R61). -/
theorem State.setReady_frame {level : Bool} (h : s.servo.ready ≠ level) (hm : level = true ∨ s.run.state.inMotion = false) :
    (s.setReady level).servo = { s.servo with ready := level, staleRun := if level then 0 else s.servo.staleRun } ∧
    (s.setReady level).drive = s.drive ∧ (s.setReady level).sched = s.sched ∧ (s.setReady level).orders = s.orders ∧
    (s.setReady level).peers = s.peers := by
  have ha := (s.readyShown level).readyTest_aside
  obtain ⟨es, cs, e⟩ := s.readyShown_frame level
  rw [State.setReady_tests h hm]
  rw [e] at ha ⊢
  exact ⟨ha.servo, ha.drive, ha.sched, ha.orders, ha.peers⟩

/-- A loss of servo-ready in READY, the roster complete (R61, R74). -/
theorem State.setReady_unreadies (h : s.servo.ready = true) (hr : s.run.state = .ready) (hc : s.rosterComplete = true) :
    s.setReady false = (s.readyShown false).changeState .standby := by
  rw [State.setReady_tests (by simp [h]) (.inr (by rw [hr]; rfl))]
  refine State.readyTest_of_loss (by rwa [State.readyShown_run]) ?_ (by rw [State.readyShown_servo])
  exact (State.rosterComplete_of_peers (s.readyShown_peers false)).trans hc

/-- Settles O25: the record of the change ahead of all that follows, and what follows by the run state. -/
theorem servoReadyIsTaken : Obligations.ServoReadyIsTaken := by
  refine ⟨fun s level h e => ?_, fun s level h e => ?_, fun s h e => ?_, fun s h e hm => ?_, fun s h e hr hc => ?_,
    fun s h e hr => ?_⟩
  · rw [State.servoReady_exec h, State.setReady_of_eq s.settle e]
    rfl
  · obtain ⟨⟨more, hp⟩, hf⟩ := State.setReady_posted (s := s.settle) e
    refine ⟨_, more, State.servoReady_exec h level, fun hl => ?_, fun hl => ?_⟩
    · exact hp.trans (congrArg (· ++ more) (State.readyShown_room (s := s.settle) level hl))
    · obtain ⟨g1, g2⟩ := State.readyShown_full (s := s.settle) level hl
      obtain ⟨f1, f2⟩ := hf (by rw [g1]; exact hl)
      rw [g2, min_eq_right (min_le_left _ _)] at f2
      exact ⟨f1.trans g1, f2⟩
  · have hne : s.settle.servo.ready ≠ true := by rw [State.settle_servo, e]; decide
    obtain ⟨h1, h2, h3, h4, h5⟩ := State.setReady_frame hne (.inl rfl)
    refine ⟨_, State.servoReady_exec h true, h1, h2, h3, h4, h5, fun hs hr => ?_⟩
    rw [State.setReady_idle hne (.inl rfl) hr fun x => absurd x hs]
    exact ⟨s.settle.readyShown_run true, fun hl => State.readyShown_room (s := s.settle) true hl,
      fun hl => State.readyShown_full (s := s.settle) true hl⟩
  · have hmot : s.settle.run.state.inMotion = true := by
      rw [State.settle_run]; rcases hm with x | x | x | x | x <;> rw [x] <;> rfl
    obtain ⟨es, cs, hx⟩ := s.settle.readyShown_frame false
    obtain ⟨h1, h2, -, h4, h5, h6, -⟩ := (s.settle.readyShown false).countFurther.enterTripped_fields
      ((s.settle.readyShown false).localRequest .servoNotReady (s.settle.readyShown false).ownNumber)
    have hv := State.servo_of_steady (State.steady_of_quiet (State.enterTripped_quiet
      ((s.settle.readyShown false).localRequest .servoNotReady (s.settle.readyShown false).ownNumber)
      (s.settle.readyShown false).countFurther))
    refine ⟨_, State.servoReady_exec h false, ?_⟩
    rw [State.setReady_trips (s := s.settle) e hmot]
    rw [hx] at h1 h2 h4 h5 h6 hv ⊢
    refine ⟨hv, h1, h2, h4, fun hn => ?_, ?_⟩
    · rw [State.settle_run] at hn
      rw [hn] at h5
      cases h5
    · rw [State.settle_drive, h6]
      exact ⟨⟨rfl, rfl, rfl, rfl⟩, rfl, rfl, rfl, rfl⟩
  · obtain ⟨h1, h2, h3, h4, -⟩ := State.setReady_frame (s := s.settle) (level := false)
      (by rw [State.settle_servo, e]; decide) (.inr (by rw [State.settle_run, hr]; rfl))
    refine ⟨_, State.servoReady_exec h false, h1, ?_, ?_, h2, h3, h4⟩
    all_goals
      rw [State.settle_run, State.setReady_unreadies (s := s.settle) e hr hc]
      rfl
  · have hne : s.settle.servo.ready ≠ false := by rw [State.settle_servo, e]; decide
    have hmot : s.settle.run.state.inMotion = false := by
      rw [State.settle_run]; rcases hr with x | x | x | x | x <;> rw [x] <;> rfl
    have hrd : s.settle.run.state ≠ .ready := by
      rw [State.settle_run]; rcases hr with x | x | x | x | x <;> rw [x] <;> decide
    obtain ⟨h1, h2, h3, h4, h5⟩ := State.setReady_frame hne (.inr hmot)
    refine ⟨_, State.servoReady_exec h false, h1, ?_, h2, h3, h4, h5, ?_⟩
    all_goals rw [State.setReady_idle hne (.inr hmot) hrd fun _ => rfl]
    · exact s.settle.readyShown_run false
    · exact fun hl => State.readyShown_room (s := s.settle) false hl

end Sys2Proof.Machine

namespace Sys2Proof.Machine

variable {s : State}

/-! ### The opening of a cycle (R55, R121) -/

theorem State.latchFeedback_time (s : State) : s.latchFeedback.time = s.time := by
  obtain ⟨c, e⟩ := s.latchFeedback_frame
  rw [e]

/-- The latch of a boundary by the new flag (R55). -/
theorem State.latchFeedback_servo (s : State) : s.latchFeedback.servo =
    if s.servo.fresh then { s.servo with feedback := s.servo.latest.getD 0, stale := false, staleRun := 0, fresh := false }
    else { s.servo with stale := true, staleRun := min 255 (s.servo.staleRun + 1), fresh := false } := by
  cases h : s.servo.fresh
  · exact State.latchFeedback_stale h
  · exact State.latchFeedback_fresh h

/-- K stays within its range while the trim does (R120, R122). -/
theorem State.increment_le (h : s.time.trim ≤ 127) : s.increment ≤ 351971 := by
  have : nominalIncrement s.time.rate ≤ 351844 := by unfold nominalIncrement; split <;> decide
  unfold State.increment; omega

/-- A boundary falls after a whole number of edges, and leaves the accumulator below K (R121). -/
theorem State.openCycle_acc (h1 : -127 ≤ s.time.trim) (h2 : s.time.trim ≤ 127) : ∃ n, 1 ≤ n ∧
    s.time.acc.toNat + n * s.increment = 4294967296 + s.openCycle.time.acc.toNat ∧ s.openCycle.time.acc.toNat < s.increment := by
  obtain ⟨g1, g2, g3⟩ := State.edgesToBoundary_spec (State.increment_pos h1)
  have hk := State.increment_le h2
  have hn : s.edgesToBoundary * s.increment = (s.edgesToBoundary - 1) * s.increment + s.increment := by
    rw [← Nat.succ_mul, Nat.succ_eq_add_one, Nat.sub_add_cancel g3]
  have ha : s.openCycle.time.acc.toNat = (s.time.acc.toNat + s.edgesToBoundary * s.increment) % 4294967296 :=
    BitVec.toNat_ofNat _ _
  exact ⟨s.edgesToBoundary, g3, by omega, by omega⟩

/-- A boundary leaves the output of the drive unit (R19). -/
theorem State.boundary_output (first : List BoundaryAction) (s : State) : (s.boundary first).drive.output = s.drive.output :=
  (State.output_of_steady (State.steady_of_quiet (foldl_keeps State.quiet State.act State.act_quiet
    (orderedBy first boundaryActions) s.opened))).trans s.opened_output

/-- The command of a boundary takes the instant still to come on its way (R123, log 9). -/
theorem State.boundary_exec_unmarked (h : s.cond = .running) (hm : s.time.mark = false) (first : List BoundaryAction) :
    exec (.cycleBoundary first) s = .next ((s.instantEdge.actInstant []).settle.boundary first).settle := by
  show Host.Outcome.next (s.whileRunning (State.endCycle first)) = _
  rw [State.whileRunning_eq h, State.endCycle, State.settle_instant hm]

/-- An instant leaves the condition of the part, its mark, and the queue of commands (R123). -/
theorem State.actInstant_edge (first : List InstantReport) (s : State) :
    (s.actInstant first).cond = s.cond ∧ (s.actInstant first).time.mark = s.time.mark ∧
      (s.actInstant first).pending = s.pending := by
  have h := s.actInstant_steady first
  obtain ⟨c, n, hh, a, q, e⟩ := s.instantReady_frame
  obtain ⟨v, k, x, ed⟩ := s.instantReady.driveInstant_frame s.run.state s.consume.2
    (instantIndex s.consume.2 s.instantReady.sched.replay)
  have hf : s.instantFacts.1.cond = s.cond ∧ s.instantFacts.1.time.mark = s.time.mark ∧
      s.instantFacts.1.pending = s.pending := by
    rw [State.instantFacts_fst, ed, e]
    exact ⟨rfl, rfl, rfl⟩
  obtain ⟨hc, hm, hp⟩ := hf
  exact ⟨(State.cond_of_steady h).trans hc, (State.mark_of_steady h).trans hm, (State.pending_of_steady h).trans hp⟩

/-! ### The rows that name an outcome (log 2) -/

theorem State.settle_of_rest (h : s.scratch = .rest) : s.settle = s := by
  unfold State.settle
  rw [← h]

/-- A row that names an outcome is the enclosing step, or has no effect. -/
theorem State.bringing_cases (h : s.scratch = .rest) (x : Happening) (f : State → State) :
    s.whileRunning (State.bringing x f) = s.whileRunning f ∨ s.whileRunning (State.bringing x f) = s := by
  unfold State.whileRunning State.bringing
  split
  · split
    · exact .inl rfl
    · exact .inr (by rw [State.settle_of_rest h, State.settle_of_rest h])
  · exact .inl rfl

/-- Settles O7: the boundary by its opening and what its acts leave quiet, the instant on the way, and the rows. -/
theorem boundaryOpensACycle : Obligations.BoundaryOpensACycle := by
  refine ⟨fun s first h hm h1 h2 => ?_, fun s first h hm => ?_, fun s first reports j l h => ?_⟩
  · obtain ⟨n, g1, g2, g3⟩ := State.openCycle_acc (s := s.settle) h1 h2
    have hq := s.settle.boundary_quiet first
    have hs := State.steady_of_quiet hq
    have hacc := (State.acc_of_steady hs).trans (congrArg Time.acc (State.latchFeedback_time _))
    have hout := s.settle.boundary_output first
    obtain ⟨c, hl⟩ := s.settle.openCycle.latchFeedback_frame
    refine ⟨_, State.boundary_exec h hm first, ?_, ?_, ?_, ⟨n, g1, ?_, ?_⟩, ?_, State.boundary_sameOutput first s.settle, ?_, ?_,
      ?_, ?_, ?_, ?_⟩
    · exact (State.cycle_of_quiet hq).trans (by rw [hl]; rfl)
    · exact (State.mark_of_steady hs).trans (by rw [hl]; rfl)
    · exact (State.rate_of_steady hs).trans (by rw [hl]; rfl)
    · rw [State.settle_time, hacc]; exact g2
    · rw [State.settle_time, hacc]; exact g3
    · exact (State.servo_of_steady hs).trans (State.latchFeedback_servo _)
    · exact congrArg (·.2.2.2.1) hout
    · exact congrArg (·.2.2.2.2.1) hout
    · exact (State.store_of_steady hs).trans (by rw [hl]; rfl)
    · exact (State.items_of_steady hs).trans (by rw [hl]; rfl)
    · exact (State.filter_of_quiet hq).trans (by rw [hl]; rfl)
    · exact (State.waiting_of_quiet hq).trans (by rw [hl]; rfl)
  · obtain ⟨hc, hk, -⟩ := s.instantEdge.actInstant_edge []
    exact ⟨_, _, State.instant_exec h hm [], hc.trans h, hk,
      State.boundary_exec (s := (s.instantEdge.actInstant []).settle) (hc.trans h) hk first,
      State.boundary_exec_unmarked h hm first⟩
  · have hb := fun x f => (State.bringing_cases h x f).imp (congrArg (Host.Outcome.next (φ := Fault) (ρ := Refusal)))
      (congrArg (Host.Outcome.next (φ := Fault) (ρ := Refusal)))
    refine ⟨_, _, rfl, fun i hi => ?_, rfl, hb _ _⟩
    simp only [List.mem_cons, List.not_mem_nil, or_false] at hi
    rcases hi with rfl | rfl | rfl | rfl | rfl | rfl <;> exact hb _ _

end Sys2Proof.Machine

namespace Sys2Proof.Machine

/-! ### The queue of commands is no part of the machine's blocks -/

theorem State.pending_of_quiet {s t : State} (h : t.quiet = s.quiet) : t.pending = s.pending :=
  State.pending_of_steady (State.steady_of_quiet h)

theorem State.boundary_pending (first : List BoundaryAction) (s : State) : (s.boundary first).pending = s.pending := by
  refine (State.pending_of_quiet (s.boundary_quiet first)).trans ?_
  obtain ⟨c, e⟩ := s.openCycle.latchFeedback_frame
  rw [e]
  rfl

theorem State.instant_pending (first : List InstantReport) (s : State) : (s.instant first).pending = s.pending := by
  unfold State.instant
  split
  · rfl
  · exact (State.actInstant_edge first _).2.2

theorem State.endCycle_pending (first : List BoundaryAction) (s : State) : (s.endCycle first).pending = s.pending :=
  (State.boundary_pending first _).trans (s.instant_pending [])

theorem State.receiveWord_pending (bits : List Bool) (s : State) : (s.receiveWord bits).pending = s.pending := by
  simp only [State.receiveWord]
  split <;> rfl

theorem State.setReady_pending (level : Bool) (s : State) : (s.setReady level).pending = s.pending := by
  have h : (s.readyShown level).pending = s.pending := State.post_pending _ _ _ _
  by_cases e : s.servo.ready = level
  · rw [s.setReady_of_eq e]
  · rw [s.setReady_of_ne e]
    split
    · exact (State.pending_of_quiet (State.requestLocal_quiet _ _ _)).trans h
    · exact (State.pending_of_quiet (State.readyTest_quiet _)).trans h

theorem State.gainSignal_pending (d : Side) (s : State) : (s.gainSignal d).pending = s.pending := by
  unfold State.gainSignal
  split
  · rfl
  · exact State.pending_of_quiet (State.tryTraining_quiet d _)

theorem State.loseSignal_pending (d : Side) (s : State) : (s.loseSignal d).pending = s.pending := by
  simp only [State.loseSignal]
  split
  · split
    · rfl
    · exact State.pending_of_quiet (State.sideDown_quiet d 3 _)
  · rfl

theorem State.expireHold_pending (d : Side) (s : State) : (s.expireHold d).pending = s.pending := by
  unfold State.expireHold
  split
  · exact State.pending_of_quiet (State.tryTraining_quiet d _)
  · rfl

theorem State.failCheck_pending (d : Side) (s : State) : (s.failCheck d).pending = s.pending := by
  unfold State.failCheck
  split
  · exact State.pending_of_quiet (State.badFrame_quiet d _)
  · rfl

theorem State.takeWaiting_pending (n : Nat) (s : State) : (s.takeWaiting n).pending = s.pending :=
  State.pending_of_steady (State.takeWaiting_steady n s)

theorem State.happens_pending (e : Together) (s : State) : (s.happens e).pending = s.pending := by
  cases e with
  | boundary first => exact s.endCycle_pending first
  | instant first => exact s.instant_pending first
  | copy n => exact s.takeWaiting_pending n
  | servoReady level => exact s.setReady_pending level
  | signalLost d => exact s.loseSignal_pending d
  | frameCheckDown d => exact s.failCheck_pending d

theorem State.fetch_pending (s : State) : s.fetch.pending = s.pending := State.pending_of_quiet s.fetch_quiet

theorem State.afterBurst_pending (s : State) : s.afterBurst.pending = s.pending :=
  (State.pending_of_quiet (State.readyTest_quiet _)).trans s.fetch_pending

theorem State.sampleCompletion_pending (s : State) : s.sampleCompletion.pending = s.pending := by
  unfold State.sampleCompletion
  split
  · unfold State.completeSamples
    dsimp only
    split <;> exact State.afterBurst_pending _
  · rfl

theorem State.shapeCompletion_pending (s : State) : s.shapeCompletion.pending = s.pending := by
  unfold State.shapeCompletion
  split
  · simp only [State.completeShape]
    split <;> exact State.afterBurst_pending _
  · rfl

theorem State.writeCompletion_pending (s : State) : s.writeCompletion.pending = s.pending := by
  unfold State.writeCompletion
  split <;> rfl

theorem State.readCompletion_pending (s : State) : s.readCompletion.pending = s.pending := by
  unfold State.readCompletion
  split <;> rfl

/-! ### The supervisor port leaves the queue -/

theorem State.takeCommand_pending (code : Nat) (tag : Byte) (args : List Word) {owner : State → State}
    (h : ∀ u, (owner u).pending = u.pending) (s : State) : (s.takeCommand code tag args owner).pending = s.pending := by
  unfold State.takeCommand
  dsimp only
  split
  · rfl
  · exact h _

theorem withCount_pending (n : Nat) (args : List Word) {owner : State → State} (h : ∀ u, (owner u).pending = u.pending)
    (s : State) : (withCount n args owner s).pending = s.pending := by
  unfold withCount
  split
  · exact h s
  · rfl

theorem inStates_pending (l : List RunState) {owner : State → State} (h : ∀ u, (owner u).pending = u.pending) (s : State) :
    (inStates l owner s).pending = s.pending := by
  unfold inStates
  split
  · exact h s
  · rfl

theorem withRanges_pending (tests : List Bool) {owner : State → State} (h : ∀ u, (owner u).pending = u.pending) (s : State) :
    (withRanges tests owner s).pending = s.pending := by
  unfold withRanges
  split
  · rfl
  · exact h s

theorem State.writeConfig_pending (args : List Word) (s : State) : (s.writeConfig args).pending = s.pending := by
  unfold State.writeConfig
  split
  · rfl
  · split
    · rfl
    · split <;> rfl

theorem State.tryOnline_pending (s : State) : s.tryOnline.pending = s.pending := by
  have hc : ∀ t : State, t.clearOwnCoefficients.pending = t.pending := fun t => by
    unfold State.clearOwnCoefficients; split <;> rfl
  unfold State.tryOnline
  split
  · rfl
  · obtain ⟨v, e, -⟩ := (s.changeState .assembly).presented.clearOwnCoefficients.takeRate.takeRoster_get
    rw [State.goOnline_eq, e]
    exact (hc _).trans (Eq.trans (b := (s.changeState .assembly).pending) rfl (State.pending_of_quiet (s.changeState_quiet _)))

theorem State.writePage_pending (args : List Word) (s : State) : (s.writePage args).pending = s.pending := by
  unfold State.writePage
  split
  · rfl
  · exact withRanges_pending (owner := State.requestChunk _) _ (fun _ => rfl) s

theorem State.readPage_pending (args : List Word) (s : State) : (s.readPage args).pending = s.pending :=
  withRanges_pending (owner := State.requestChunk _) _ (fun _ => rfl) s

/-- The READY test and the reply behind a fetch (R34, R74). -/
theorem State.fetchedTest_pending (s : State) : (s.fetch.readyTest.finish .ok []).pending = s.pending :=
  (State.pending_of_quiet (State.readyTest_quiet _)).trans s.fetch_pending

theorem State.appendSegment_pending (args : List Word) (s : State) : (s.appendSegment args).pending = s.pending := by
  unfold State.appendSegment
  split
  · rfl
  · split
    · rfl
    · split
      · rfl
      · exact State.fetchedTest_pending _

theorem State.discardSchedule_pending (s : State) : s.discardSchedule.pending = s.pending := State.fetchedTest_pending _

theorem State.seekRepeat_pending (args : List Word) (s : State) : (s.seekRepeat args).pending = s.pending := by
  unfold State.seekRepeat
  split
  · split
    · exact State.fetchedTest_pending _
    · rfl
  · rfl

theorem State.writeCoupling_pending (args : List Word) (s : State) : (s.writeCoupling args).pending = s.pending := by
  unfold State.writeCoupling
  split
  · rfl
  · split
    · rfl
    · split <;> rfl

theorem State.applyCoupling_pending (args : List Word) (s : State) : (s.applyCoupling args).pending = s.pending := by
  unfold State.applyCoupling; split <;> rfl

theorem orderOwner_pending (n : Nat) (args : List Word) (l : List RunState) (k : OrderKind) (b : Nat) (s : State) :
    (orderOwner n args l k b s).pending = s.pending := by
  refine withCount_pending n args (inStates_pending l (withRanges_pending _ fun u => ?_)) s
  unfold State.commandOrder
  split
  · exact State.pending_of_quiet (State.originate_quiet k _ b u)
  · rfl

theorem State.stopCommand_pending (e : Option Together) (s : State) : (s.stopCommand e).pending = s.pending := by
  have h : ∀ t : State, ((t.requestLocal .operator t.ownNumber).finish .ok []).pending = t.pending := fun t =>
    State.pending_of_quiet (State.requestLocal_quiet _ _ t)
  cases e with
  | none => exact h s
  | some e => exact (h _).trans (s.happens_pending e)

theorem State.clearCommand_pending (s : State) : s.clearCommand.pending = s.pending := by
  have hl : ∀ t : State, (t.clearEpisode.leaveStop.finish .ok []).pending = t.pending := fun t => by
    show t.clearEpisode.leaveStop.pending = _
    unfold State.leaveStop
    split
    · exact State.pending_of_quiet (State.enterStandby_quiet t.clearEpisode)
    · exact State.pending_of_quiet (State.changeState_quiet _ t.clearEpisode)
  unfold State.clearCommand
  split
  · exact hl s
  · unfold State.clearTripped
    split
    · exact (hl _).trans (State.fetch_pending (s.release.setHold false))
    · rfl
  · rfl

theorem State.readEvent_pending (s : State) : s.readEvent.pending = s.pending := by
  unfold State.readEvent; split <;> rfl

theorem State.readTable_pending (n k : Nat) (s : State) : (s.readTable n k).pending = s.pending := by
  have ht : ∀ (m : Nat) (f : Station → List Word), (s.stationTable m f).pending = s.pending := fun m f => by
    unfold State.stationTable; split <;> rfl
  have ha : ∀ x : Option (List Word), (s.answerRecord x).pending = s.pending := fun x => by
    unfold State.answerRecord; split <;> rfl
  unfold State.readTable
  split
  case h_1 | h_2 | h_3 | h_5 => exact ht _ _
  case h_4 | h_6 =>
    split
    · exact ha _
    · rfl
  case h_7 => split <;> rfl
  case h_8 => rfl

theorem State.malformedCommand_pending (x : Bool) (b : List Byte) (s : State) :
    (s.malformedCommand x b).pending = s.pending := by
  unfold State.malformedCommand; split <;> rfl

/-! ### Every command -/

/-- The commands that act on a part that does not run: the two resets with their ends, and the loss of the supply. -/
def partCommand (c : Instr) : Prop := c = .powerOnReset ∨ c = .resetRelease ∨ c = .resetNodeEnd ∨ c = .powerLoss

/-- What a command leaves: the queue, the scratch at rest, and of a part that does not run everything, unless it is one of the part's
own. -/
structure Completed (c : Instr) (s t : State) : Prop where
  pending : t.pending = s.pending
  scratch : s.scratch = .rest → t.scratch = .rest
  inert : s.cond ≠ .running → ¬ partCommand c → t = s

variable {c : Instr}

/-- A step of the running part whose act leaves the queue (R65, R68; log 33). -/
theorem State.whileRunning_completed {f : State → State} (h : ∀ u, (f u).pending = u.pending) (s : State) :
    Completed c s (s.whileRunning f) := by
  by_cases hc : s.cond = .running
  · rw [State.whileRunning_eq hc]
    exact ⟨h s.settle, fun _ => rfl, fun g => absurd hc g⟩
  · rw [State.whileRunning, if_neg (by simpa [State.running] using hc)]
    exact ⟨rfl, id, fun _ _ => rfl⟩

theorem State.bringing_pending (x : Happening) {f : State → State} (h : ∀ u, (f u).pending = u.pending) (u : State) :
    (u.bringing x f).pending = u.pending := by
  unfold State.bringing
  split
  · exact h u
  · rfl

theorem State.command_completed (code : Nat) (tag : Byte) (args : List Word) {owner : State → State}
    (h : ∀ u, (owner u).pending = u.pending) (s : State) : Completed c s (s.command code tag args owner) :=
  State.whileRunning_completed (State.takeCommand_pending code tag args h) s

/-- A command with its number of arguments (R202). -/
theorem State.counted_completed (code n : Nat) (tag : Byte) (args : List Word) {owner : State → State}
    (h : ∀ u, (owner u).pending = u.pending) (s : State) : Completed c s (s.command code tag args (withCount n args owner)) :=
  s.command_completed code tag args (withCount_pending n args h)

theorem State.resetBlocks_completed (hc : partCommand c) (x : Condition) {s u : State} (h : u.pending = s.pending) :
    Completed c s (u.resetBlocks x) := ⟨h, fun _ => rfl, fun _ g => absurd hc g⟩

/-- A command of the part that changes its condition alone. -/
theorem State.cond_completed (hc : partCommand c) (x : Condition) (s : State) : Completed c s { s with cond := x } :=
  ⟨rfl, id, fun _ g => absurd hc g⟩

theorem Completed.refl (s : State) : Completed c s s := ⟨rfl, id, fun _ _ => rfl⟩

/-- Every command answers a next state that completes it. -/
theorem exec_completed (c : Instr) (s : State) : ∃ t, exec c s = .next t ∧ Completed c s t := by
  have hcycle : ∀ x first, Completed c s (s.whileRunning (State.bringing x (State.endCycle first))) := fun x first =>
    s.whileRunning_completed (State.bringing_pending x (State.endCycle_pending first))
  have hcopy : ∀ x n, Completed c s (s.whileRunning (State.bringing x (State.takeWaiting n))) := fun x n =>
    s.whileRunning_completed (State.bringing_pending x (State.takeWaiting_pending n))
  cases c with
  | powerOnReset => exact ⟨_, rfl, State.resetBlocks_completed (.inl rfl) _ s.cutStore_pending⟩
  | resetRelease =>
    refine ⟨_, rfl, ?_⟩
    split
    · exact s.cond_completed (.inr (.inl rfl)) _
    · exact .refl s
  | resetNodeTakesEffect =>
    refine ⟨_, rfl, ?_⟩
    split
    · rename_i h
      exact ⟨rfl, fun _ => rfl, fun g => absurd (by simp_all [State.running]) g⟩
    · exact .refl s
  | resetNodeEnd =>
    refine ⟨_, rfl, ?_⟩
    split
    · exact s.cond_completed (.inr (.inr (.inl rfl))) _
    · exact .refl s
  | cycleBoundary first => exact ⟨_, rfl, s.whileRunning_completed (State.endCycle_pending first)⟩
  | outputInstant first => exact ⟨_, rfl, s.whileRunning_completed (State.instant_pending first)⟩
  | feedbackWord straddles bits =>
    refine ⟨_, rfl, ?_⟩
    split
    · exact .refl s
    · exact s.whileRunning_completed (State.receiveWord_pending bits)
  | servoReady level => exact ⟨_, rfl, s.whileRunning_completed (State.setReady_pending level)⟩
  | signalPresent d => exact ⟨_, rfl, s.whileRunning_completed (State.gainSignal_pending d)⟩
  | signalLost d => exact ⟨_, rfl, s.whileRunning_completed (State.loseSignal_pending d)⟩
  | downHoldExpiry d => exact ⟨_, rfl, s.whileRunning_completed (State.expireHold_pending d)⟩
  | laneWord d p f k => exact ⟨_, rfl, s.whileRunning_completed fun u => State.pending_of_quiet (State.takeLaneWord_quiet d p f k u)⟩
  | sideTrained d =>
    refine ⟨_, rfl, s.whileRunning_completed fun u => ?_⟩
    split
    · exact State.pending_of_quiet (State.cleanWord_quiet d u)
    · rfl
  | frameArrival l k b => exact ⟨_, rfl, s.whileRunning_completed fun u => State.pending_of_steady (State.takeArrival_steady l k b u)⟩
  | frameCheckDown d => exact ⟨_, rfl, s.whileRunning_completed (State.failCheck_pending d)⟩
  | transmitStart l n =>
    exact ⟨_, rfl, s.whileRunning_completed fun u =>
      (State.pending_of_quiet (State.startTransmission_quiet l (u.elapseWithin n))).trans rfl⟩
  | deliveryCopyTaken n => exact ⟨_, rfl, s.whileRunning_completed (State.takeWaiting_pending n)⟩
  | resynchronisation n => exact ⟨_, rfl, hcopy _ n⟩
  | pathDegraded n => exact ⟨_, rfl, hcopy _ n⟩
  | stepLoss n => exact ⟨_, rfl, hcopy _ n⟩
  | feedbackLoss first => exact ⟨_, rfl, hcycle _ first⟩
  | rampEndReport first => exact ⟨_, rfl, hcycle _ first⟩
  | assemblyComplete first => exact ⟨_, rfl, hcycle _ first⟩
  | peerSilent first j => exact ⟨_, rfl, hcycle _ first⟩
  | ringOpen first l => exact ⟨_, rfl, hcycle _ first⟩
  | markerPulseEnd first => exact ⟨_, rfl, hcycle _ first⟩
  | peerLate first j => exact ⟨_, rfl, s.whileRunning_completed (State.bringing_pending _ (State.instant_pending first))⟩
  | sampleBurstCompletion => exact ⟨_, rfl, s.whileRunning_completed State.sampleCompletion_pending⟩
  | shapeLoadBurstCompletion => exact ⟨_, rfl, s.whileRunning_completed State.shapeCompletion_pending⟩
  | writeChunkCompletion => exact ⟨_, rfl, s.whileRunning_completed State.writeCompletion_pending⟩
  | readChunkCompletion => exact ⟨_, rfl, s.whileRunning_completed State.readCompletion_pending⟩
  | malformedTransaction x b => exact ⟨_, rfl, s.whileRunning_completed (State.malformedCommand_pending x b)⟩
  | readReply n => exact ⟨_, rfl, s.whileRunning_completed (f := State.readReply n) fun _ => rfl⟩
  | getStatus tag args => exact ⟨_, rfl, s.counted_completed _ 0 tag args
    (owner := fun t => t.finish .ok t.statusWords) fun _ => rfl⟩
  | writeConfig tag args => exact ⟨_, rfl, s.command_completed _ tag args (State.writeConfig_pending args)⟩
  | goOnline tag args => exact ⟨_, rfl, s.counted_completed _ 0 tag args (inStates_pending _ State.tryOnline_pending)⟩
  | writePage tag args => exact ⟨_, rfl, s.command_completed _ tag args (State.writePage_pending args)⟩
  | readPage tag args => exact ⟨_, rfl, s.counted_completed _ 3 tag args (State.readPage_pending args)⟩
  | appendSegment tag args => exact ⟨_, rfl, s.counted_completed _ 8 tag args (State.appendSegment_pending args)⟩
  | discardSchedule tag args => exact ⟨_, rfl, s.counted_completed _ 0 tag args (inStates_pending _ State.discardSchedule_pending)⟩
  | seekRepeat tag args => exact ⟨_, rfl, s.counted_completed _ 1 tag args (inStates_pending _ (State.seekRepeat_pending args))⟩
  | writeCoupling tag args => exact ⟨_, rfl, s.counted_completed _ 2 tag args (State.writeCoupling_pending args)⟩
  | applyCoupling tag args => exact ⟨_, rfl, s.counted_completed _ 1 tag args (State.applyCoupling_pending args)⟩
  | start tag args => exact ⟨_, rfl, s.command_completed _ tag args (orderOwner_pending 2 args _ .start _)⟩
  | pause tag args => exact ⟨_, rfl, s.command_completed _ tag args (orderOwner_pending 1 args _ .pause _)⟩
  | resume tag args => exact ⟨_, rfl, s.command_completed _ tag args (orderOwner_pending 1 args _ .resume _)⟩
  | setLevel tag args => exact ⟨_, rfl, s.command_completed _ tag args (orderOwner_pending 2 args _ .level _)⟩
  | stop tag arrival =>
    exact ⟨_, rfl, s.counted_completed _ 0 tag arrival.words (inStates_pending _ (State.stopCommand_pending arrival.ahead))⟩
  | clear tag args => exact ⟨_, rfl, s.counted_completed _ 0 tag args State.clearCommand_pending⟩
  | readEvent tag args => exact ⟨_, rfl, s.counted_completed _ 0 tag args State.readEvent_pending⟩
  | readTable tag args => exact ⟨_, rfl, s.counted_completed _ 2 tag args (State.readTable_pending _ _)⟩
  | clearCounters tag args => exact ⟨_, rfl, s.counted_completed _ 0 tag args (owner := State.clearCounters) fun _ => rfl⟩
  | resetNode tag args => exact ⟨_, rfl, s.counted_completed _ 0 tag args (owner := State.resetNode) fun _ => rfl⟩
  | arrivalStamp l n => exact ⟨_, rfl, s.whileRunning_completed (f := State.stampArrival l n) fun _ => rfl⟩
  | transmissionEnd l => exact ⟨_, rfl, s.whileRunning_completed fun u => (rfl : (u.onLane l _).pending = u.pending)⟩
  | powerLoss => exact ⟨_, rfl, s.cond_completed (.inr (.inr (.inr rfl))) _⟩

/-- Settles O2: every command but those of the part is a step of the running part alone, whose act leaves the queue. -/
theorem everyCommandCompletes : Obligations.EveryCommandCompletes := by
  intro c s
  obtain ⟨t, h, g⟩ := exec_completed c s
  refine ⟨t, h, g.pending, g.scratch, fun hc h1 h2 h3 h4 => g.inert hc ?_⟩
  rintro (e | e | e | e)
  exacts [h1 e, h2 e, h3 e, h4 e]

end Sys2Proof.Machine

namespace Sys2Proof.Machine

variable {s t : State} {q : StopRequest}

/-! ### The record and the counters of a stop request (R82, R93, R94) -/

/-- The counters of the requests taken, counted and noted (R82, R87). -/
def State.stopCounts (s : State) : Nat × Nat × Nat :=
  (s.counter .stopsTaken, s.counter .stopsCounted, s.counter .stopsNoted)

theorem State.post_stopCounts (k : EventKind) (a b : Word) (s : State) : (s.post k a b).stopCounts = s.stopCounts := by
  simp only [State.stopCounts, s.post_counter k a b (by decide : Counter.stopsTaken.place ≠ Counter.eventOverflow.place),
    s.post_counter k a b (by decide : Counter.stopsCounted.place ≠ Counter.eventOverflow.place),
    s.post_counter k a b (by decide : Counter.stopsNoted.place ≠ Counter.eventOverflow.place)]

theorem State.changeState_stopCounts (r : RunState) (s : State) : (s.changeState r).stopCounts = s.stopCounts :=
  State.post_stopCounts _ _ _ s

theorem State.readyTest_stopCounts (s : State) : s.readyTest.stopCounts = s.stopCounts := by
  rcases s.readyTest_cases with e | ⟨-, e⟩ | ⟨-, r, -, e⟩ <;> rw [e]
  · exact s.changeState_stopCounts _
  · exact s.changeState_stopCounts r

/-- A request taken raises the first counter of the three alone (R82). -/
theorem State.taken_stopCounts (q : StopRequest) (s : State) : (s.taken q).stopCounts =
    (min 4294967295 (s.counter .stopsTaken + 1), s.counter .stopsCounted, s.counter .stopsNoted) :=
  (State.post_stopCounts _ _ _ _).trans (Prod.ext (s.bump_counter _) (Prod.ext
    (s.count_counter_other .stopsTaken .stopsCounted 1 (by decide)) (s.count_counter_other .stopsTaken .stopsNoted 1 (by decide))))

theorem State.rewind_run (s : State) : s.rewind.run = s.run := by
  have hf : ∀ u : State, u.fetch.run = u.run := fun u => by
    obtain ⟨b, a, e⟩ := u.fetch_frame
    rw [e]
  unfold State.rewind
  split <;> exact hf _

@[simp] theorem State.taken_run (q : StopRequest) (s : State) : (s.taken q).run = s.run := by simp [State.taken]

theorem State.recordOf_taken (s : State) : (s.taken q).recordOf q = s.recordOf q := by
  simp [State.taken, State.recordOf]

/-- The record that a trip leaves: the one held or the one latched, escalated when it was held in STOPPING (R86, R93). -/
theorem State.enterTripped_record (q : StopRequest) (s : State) : (s.enterTripped q).run.record =
    (s.run.record.or (some (s.recordOf q))).map fun r =>
      { r with escalated := r.escalated || decide (s.run.state = .stopping) } := by
  have hl : ((s.taken q).latch q).run.record = s.run.record.or (some (s.recordOf q)) := by
    simp [State.latch, State.recordOf_taken]
  have hs : ((s.taken q).latch q).run.state = s.run.state := by simp [State.latch]
  have he : ∀ u : State, ((((u.setStopField q).changeState .tripped).freeze).setHold true).rewind.run.record =
      u.run.record := fun u => by
    rw [State.rewind_run]
    simp [State.setStopField]
  simp only [State.enterTripped, hs]
  split
  · rename_i h
    rw [he, State.escalate, hl]
    simp [h]
  · rename_i h
    rw [he, hl]
    simp [h]

theorem State.enterTripped_stopCounts (q : StopRequest) (s : State) : (s.enterTripped q).stopCounts = (s.taken q).stopCounts := by
  have hc : ∀ u : State, u.port = (s.taken q).port →
      ((((u.setStopField q).changeState .tripped).freeze).setHold true).rewind.stopCounts = (s.taken q).stopCounts := by
    intro u hu
    have h : u.stopCounts = (s.taken q).stopCounts := by unfold State.stopCounts State.counter; rw [hu]
    unfold State.stopCounts State.counter
    rw [State.rewind_port]
    exact (State.changeState_stopCounts .tripped (u.setStopField q)).trans h
  simp only [State.enterTripped]
  split <;> exact hc _ rfl

/-- Away from the stepping of a boundary the descent begins without a step (R24, R83). -/
theorem State.request_descends (hq : q.cause.isT = false) (h : s.run.state.stoppable) (hx : s.scratch.stepped = none) :
    s.request q = (s.stopBegun q).installDescent := by
  rw [State.request_begins hq h, State.firstStep, if_neg]
  simp [State.installDescent, (s.stopBegun_aside q).scratch, hx]

/-- The record and the trip line when the STOP descent is about to begin (R93, R97). -/
theorem State.stopBegun_record (q : StopRequest) (s : State) : (s.stopBegun q).run.trip = s.run.trip ∧
    (s.stopBegun q).run.record = s.countFurther.run.record.or (some (s.countFurther.recordOf q)) := by
  have h : s.countFurther.run.trip = s.run.trip := rfl
  simp [State.stopBegun, State.setStopField, State.latch, State.recordOf_taken, State.changeState_trip, h]

theorem State.stopBegun_stopCounts (q : StopRequest) (s : State) : (s.stopBegun q).stopCounts = (s.taken q).stopCounts :=
  (State.changeState_stopCounts _ _).trans
    ((State.taken_stopCounts q s.countFurther).trans (State.taken_stopCounts q s).symm)

/-- The record and the counters of a request that cancels a countdown (R84). -/
theorem State.cancelled_record (hq : q.cause.isT = false) (h : s.run.state = .countdown) :
    (s.request q).run.record = s.countFurther.run.record ∧ (s.request q).stopCounts = (s.taken q).stopCounts := by
  have ht : (s.countFurther.taken q).run.state = .countdown := by simp [State.countFurther, h]
  obtain ⟨-, -, -, h4⟩ := State.returnToReady_run ht
  rw [State.request_countdown hq h, State.cancelCountdown]
  refine ⟨h4.trans (by simp), ?_⟩
  exact (State.readyTest_stopCounts _).trans ((State.changeState_stopCounts _ _).trans
    ((State.taken_stopCounts q s.countFurther).trans (State.taken_stopCounts q s).symm))

theorem State.noteRequest_record (q : StopRequest) (s : State) : (s.noteRequest q).run.record = s.run.record := by
  simp only [State.noteRequest]
  split
  · simp
  · split <;> simp

/-- The request is one that is taken: class T outside OFFLINE and TRIPPED, class S in COUNTDOWN and where it stops (R82). -/
def StopRequest.takenIn (q : StopRequest) (r : RunState) : Prop :=
  (q.cause.isT = true ∧ r ≠ .offline ∧ r ≠ .tripped) ∨
    (q.cause.isT = false ∧ (r = .countdown ∨ r = .run ∨ r = .pausing ∨ r = .paused))

theorem State.request_stopCounts (hx : s.scratch.stepped = none) (h : q.takenIn s.run.state) :
    (s.request q).stopCounts = (s.taken q).stopCounts := by
  rcases h with ⟨hq, ho, ht⟩ | ⟨hq, h | h⟩
  · rw [State.request_tripping hq ht ho]
    exact (State.enterTripped_stopCounts q _).trans ((State.taken_stopCounts q s.countFurther).trans (State.taken_stopCounts q s).symm)
  · exact (State.cancelled_record hq h).2
  · rw [State.request_descends hq h hx]
    exact State.stopBegun_stopCounts q s

/-- A record held counts the request, and is escalated by one of class T in STOPPING (R86, R94). -/
theorem State.request_held {r : FaultRecord} (hx : s.scratch.stepped = none) (hr : s.run.record = some r)
    (ho : s.run.state ≠ .offline) : (s.request q).run.record = some { r with
      further := min 255 (r.further + 1)
      escalated := r.escalated || (q.cause.isT && decide (s.run.state = .stopping)) } := by
  have hf : s.countFurther.run.record = some { r with further := min 255 (r.further + 1) } := by
    simp [State.countFurther, hr]
  cases hq : q.cause.isT with
  | true =>
    by_cases ht : s.run.state = .tripped
    · have h : s.request q = s.countFurther.bump .stopsCounted := by unfold State.request; rw [hq, ht]
      rw [h, State.bump_run, hf, ht]
      simp
    · rw [State.request_tripping hq ht ho, State.enterTripped_record, hf]
      rfl
  | false =>
    have hkeep : ∀ u : State, u.run.record = s.countFurther.run.record → u.run.record = some { r with
        further := min 255 (r.further + 1)
        escalated := r.escalated || (false && decide (s.run.state = .stopping)) } := fun u hu => by
      rw [hu, hf]
      simp
    refine hkeep _ ?_
    have hn := State.noteRequest_record q s.countFurther
    have hd : s.run.state.stoppable → (s.request q).run.record = s.countFurther.run.record := fun h => by
      rw [State.request_descends hq h hx]
      exact (State.stopBegun_record q s).2.trans (by rw [hf]; rfl)
    cases hs : s.run.state with
    | offline => exact absurd hs ho
    | countdown => exact (State.cancelled_record hq hs).1
    | run => exact hd (.inl hs)
    | pausing => exact hd (.inr (.inl hs))
    | paused => exact hd (.inr (.inr hs))
    | stopping => rw [State.request_counted hq (.inl hs)]; rfl
    | stopped => rw [State.request_counted hq (.inr hs)]; rfl
    | assembly => rw [State.request_noted hq (.inl hs)]; exact hn
    | standby => rw [State.request_noted hq (.inr (.inl hs))]; exact hn
    | ready => rw [State.request_noted hq (.inr (.inr (.inl hs)))]; exact hn
    | tripped => rw [State.request_noted hq (.inr (.inr (.inr hs)))]; exact hn

/-- Without a record a request that stops or trips the node latches its own (R93). -/
theorem State.request_latches (hx : s.scratch.stepped = none) (hr : s.run.record = none)
    (h : (q.cause.isT = true ∧ s.run.state ≠ .offline ∧ s.run.state ≠ .tripped ∧ s.run.state ≠ .stopping) ∨
      (q.cause.isT = false ∧ s.run.state.stoppable)) : (s.request q).run.record = some (s.recordOf q) := by
  have hf : s.countFurther.run.record = none := by simp [State.countFurther, hr]
  rcases h with ⟨hq, ho, ht, hs⟩ | ⟨hq, h⟩
  · have hs' : s.countFurther.run.state ≠ .stopping := hs
    rw [State.request_tripping hq ht ho, State.enterTripped_record, hf]
    simp only [hs', decide_false, Bool.or_false]
    rfl
  · rw [State.request_descends hq h hx]
    exact (State.stopBegun_record q s).2.trans (by rw [hf]; rfl)

/-- Settles O26: by class and run state, with the record and the counters of each. -/
theorem stopRequestTable : Obligations.StopRequestTable := by
  intro q s t hscratch ht
  subst ht
  have hx : s.scratch.stepped = none := by rw [hscratch]; rfl
  refine ⟨fun ho => ?_, fun hq ho hs => ?_, fun hq hs => ?_, fun hq hs => ?_, fun hq hs => ?_, fun hq hs => ?_, fun hq hs => ?_,
    fun r hr ho => State.request_held hx hr ho, fun h => ?_, fun hr hs hq => ?_, fun hr h => State.request_latches hx hr h⟩
  · unfold State.request; rw [ho]
  · rw [State.request_tripping hq hs ho]
    obtain ⟨h1, h2, -, h3, -, h4, -, h5, -⟩ := s.countFurther.enterTripped_fields q
    exact ⟨h1, h2, h3, h5, h4⟩
  · have h : s.request q = s.countFurther.bump .stopsCounted := by unfold State.request; rw [hq, hs]
    rw [h]
    exact ⟨hs, rfl, rfl, rfl, State.bump_counter _ _⟩
  · obtain ⟨h1, h2, h3, h4, -⟩ := State.stopped_of_rest hq hs hx
    refine ⟨h1, ?_, h2, h3, h4⟩
    rw [State.request_descends hq hs hx]
    exact (State.stopBegun_record q s).1
  · obtain ⟨ha, h1, h2, h3⟩ := State.cancelled hq hs
    exact ⟨h1, h2, h3, ha.drive, ha.sched, ha.orders⟩
  · obtain ⟨ha, h1, h2, -, h3⟩ := State.noted hq hs
    exact ⟨h1, h2, ha.drive, ha.sched, h3⟩
  · obtain ⟨ha, h1, h2, -, -, h3⟩ := State.counted hq hs
    exact ⟨h1, h2, ha.drive, ha.sched, h3⟩
  · have hc := (State.request_stopCounts hx h).trans (State.taken_stopCounts q s)
    simpa only [State.stopCounts, Prod.mk.injEq] using hc
  · rw [(State.cancelled_record hq hs).1, State.countFurther, hr]
    rfl

end Sys2Proof.Machine

namespace Sys2Proof.Machine

variable {s t u : State} {d k : Side}

/-! ### A cable side through its moves (R175 to R179) -/

theorem State.side_of_ring (h : t.ring = s.ring) (k : Side) : t.side k = s.side k := congrArg (·.side k) h

/-- From s to t nothing of lanes, run controller, configuration and the other cable side has changed. -/
structure OnSide (d : Side) (s t : State) : Prop where
  side : ∀ k, k ≠ d → t.side k = s.side k
  lane : ∀ l, t.lane l = s.lane l
  run : t.run = s.run
  items : t.items = s.items

theorem OnSide.refl (d : Side) (s : State) : OnSide d s s := ⟨fun _ _ => rfl, fun _ => rfl, rfl, rfl⟩

theorem OnSide.trans (h : OnSide d s t) (g : OnSide d t u) : OnSide d s u :=
  ⟨fun k hk => (g.side k hk).trans (h.side k hk), fun l => (g.lane l).trans (h.lane l), g.run.trans h.run, g.items.trans h.items⟩

theorem State.onSide_only (f : SideRec → SideRec) (s : State) : OnSide d s (s.onSide d f) :=
  ⟨fun k hk => s.onSide_side_other d k f hk, fun l => s.onSide_lane d l f, rfl, rfl⟩

/-- A change of a side's state (R179). -/
theorem State.setSide_only (x : SideState) (c : Nat) (s : State) : OnSide d s (s.setSide d x c) := by
  have h := s.onSide_only (d := d) fun y => { y with state := x }
  have hr := State.post_ring (s.onSide d fun y => { y with state := x }) .sideState
    (word (d.code * 256 + x.code)) (word ((s.side d).state.code * 256 + c))
  exact ⟨fun k hk => (State.side_of_ring hr k).trans (h.side k hk), fun l => (State.lane_of_ring hr l).trans (h.lane l),
    State.post_run _ _ _ _, State.items_of_steady (State.steady_of_quiet (State.setSide_quiet d x c s))⟩

theorem State.setSide_side (x : SideState) (c : Nat) (s : State) : (s.setSide d x c).side d = { s.side d with state := x } :=
  (State.side_of_ring (State.post_ring _ _ _ _) d).trans (s.onSide_side d _)

/-- The start of training touches its side alone (R176). -/
theorem State.tryTraining_only (s : State) : OnSide d s (s.tryTraining d) := by
  simp only [State.tryTraining]
  split
  · exact (s.setSide_only .training 1).trans (State.onSide_only _ _)
  · exact .refl d s

/-- A DOWN side with signal whose hold has run out enters TRAINING (R176). -/
theorem State.tryTraining_side (s : State) : (s.tryTraining d).side d =
    if (s.side d).state = .down ∧ (s.side d).hold = 0 ∧ (s.side d).signal = true then
      { s.side d with state := .training, words := 0 } else s.side d := by
  simp only [State.tryTraining]
  split
  · rw [State.onSide_side]
    show { (s.setSide d .training 1).side d with words := 0 } = _
    rw [State.setSide_side]
  · rfl

/-! ### SIGNAL PRESENT and DOWN HOLD EXPIRY (R175, R176) -/

theorem State.gainSignal_facts (h : (s.side d).signal = false) : OnSide d s (s.gainSignal d) ∧
    (s.gainSignal d).side d = if (s.side d).state = .down ∧ (s.side d).hold = 0 then
      { s.side d with signal := true, state := .training, words := 0 } else { s.side d with signal := true } := by
  rw [State.gainSignal, if_neg (by simp [h])]
  refine ⟨(State.onSide_only _ s).trans (State.tryTraining_only _), ?_⟩
  rw [State.tryTraining_side, State.onSide_side]
  simp only [and_true]

theorem State.expireHold_facts (h : (s.side d).state = .down) (h0 : 0 < (s.side d).hold) : OnSide d s (s.expireHold d) ∧
    (s.expireHold d).side d = if (s.side d).signal then { s.side d with hold := 0, state := .training, words := 0 }
      else { s.side d with hold := 0 } := by
  rw [State.expireHold, if_pos ⟨h, h0⟩]
  refine ⟨(State.onSide_only _ s).trans (State.tryTraining_only _), ?_⟩
  rw [State.tryTraining_side, State.onSide_side]
  simp only [h, true_and]

/-! ### SIGNAL LOST (R175 to R178, R91) -/

/-- The loss of waiting frames is counted and nothing else (R178). -/
theorem Queued.countLost_frame (l : Lane) (q : Queued) (s : State) : (q.countLost l s).ring = s.ring ∧
    (q.countLost l s).run = s.run ∧ (q.countLost l s).items = s.items := by
  cases q <;> exact ⟨rfl, rfl, rfl⟩

theorem State.emptyQueue_frame (l : Lane) (s : State) : (∀ k, (s.emptyQueue l).side k = s.side k) ∧
    (∀ m, m ≠ l → (s.emptyQueue l).lane m = s.lane m) ∧ (s.emptyQueue l).lane l = { s.lane l with queue := [] } ∧
    (s.emptyQueue l).run = s.run ∧ (s.emptyQueue l).items = s.items := by
  have h : ∀ (qs : List Queued) (v : State), (qs.foldl (fun t q => q.countLost l t) v).ring = v.ring ∧
      (qs.foldl (fun t q => q.countLost l t) v).run = v.run ∧ (qs.foldl (fun t q => q.countLost l t) v).items = v.items :=
    fun qs v => ⟨foldl_keeps State.ring _ (fun t q => (q.countLost_frame l t).1) qs v,
      foldl_keeps State.run _ (fun t q => (q.countLost_frame l t).2.1) qs v,
      foldl_keeps State.items _ (fun t q => (q.countLost_frame l t).2.2) qs v⟩
  obtain ⟨hring, hrun, hitems⟩ := h (s.lane l).queue s
  unfold State.emptyQueue
  refine ⟨fun k => (State.onLane_side _ l k _).trans (State.side_of_ring hring k),
    fun m hm => (State.onLane_lane_other _ l m _ hm).trans (State.lane_of_ring hring m), ?_, hrun, hitems⟩
  rw [State.onLane_lane]
  exact congrArg (fun y : LaneRec => { y with queue := [] }) (State.lane_of_ring hring l)

/-- What stands when a side has gone DOWN, before the ISOLATED test (R176, R178). -/
def State.dropped (d : Side) (cause : Nat) (s : State) : State :=
  if (s.side d).state == .up then
    ((s.setSide d .down cause).onSide d (fun x => { x with hold := 500 })).emptyQueue d.transmits
  else (s.setSide d .down cause).onSide d (fun x => { x with hold := 500 })

theorem State.sideDown_eq (d : Side) (cause : Nat) (s : State) : s.sideDown d cause = (s.dropped d cause).isolatedTest := rfl

theorem receives_ne_transmits (d : Side) : d.receives ≠ d.transmits := by cases d <;> decide

/-- A side gone DOWN: its hold anew, the queue it transmits emptied when it was UP, and nothing else of the ring (R176, R178). -/
theorem State.dropped_frame (cause : Nat) (s : State) :
    (s.dropped d cause).side d = { s.side d with state := .down, hold := 500 } ∧
    (∀ k, k ≠ d → (s.dropped d cause).side k = s.side k) ∧ (s.dropped d cause).lane d.receives = s.lane d.receives ∧
    ((s.dropped d cause).lane d.transmits).queue = (if (s.side d).state = .up then [] else (s.lane d.transmits).queue) ∧
    (s.dropped d cause).run = s.run ∧ (s.dropped d cause).items = s.items := by
  have h := (s.setSide_only (d := d) .down cause).trans (State.onSide_only (fun x => { x with hold := 500 }) _)
  have hs : ((s.setSide d .down cause).onSide d fun x => { x with hold := 500 }).side d =
      { s.side d with state := .down, hold := 500 } := by
    rw [State.onSide_side]
    show { (s.setSide d .down cause).side d with hold := 500 } = _
    rw [State.setSide_side]
  unfold State.dropped
  by_cases hu : (s.side d).state = .up
  · rw [if_pos (by simp [hu]), if_pos hu]
    obtain ⟨e1, e2, e3, e4, e5⟩ := State.emptyQueue_frame d.transmits
      ((s.setSide d .down cause).onSide d fun x => { x with hold := 500 })
    exact ⟨(e1 d).trans hs, fun k hk => (e1 k).trans (h.side k hk), (e2 _ (receives_ne_transmits d)).trans (h.lane _), by rw [e3],
      e4.trans h.run, e5.trans h.items⟩
  · rw [if_neg (by simp [hu]), if_neg hu]
    exact ⟨hs, h.side, h.lane _, by rw [h.lane], h.run, h.items⟩

/-- The ISOLATED condition, one side being DOWN (R91). -/
theorem State.isolated_iff_of_down (h : (s.side d).state = .down) : s.isolated = true ↔
    (∃ k, k ≠ d ∧ (s.side k).state = .down) ∧ s.items.roster ≠ 0 ∧ s.run.state.inMotion = true := by
  have hk : (∃ k, k ≠ d ∧ (s.side k).state = .down) ↔ s.ring.west.state = .down ∧ s.ring.east.state = .down := by
    cases d with
    | west => exact ⟨fun ⟨k, hk, hd⟩ => ⟨h, by cases k with | west => exact absurd rfl hk | east => exact hd⟩,
        fun hd => ⟨.east, by decide, hd.2⟩⟩
    | east => exact ⟨fun ⟨k, hk, hd⟩ => ⟨by cases k with | west => exact hd | east => exact absurd rfl hk, h⟩,
        fun hd => ⟨.west, by decide, hd.1⟩⟩
  rw [hk]
  simp [State.isolated, and_assoc]

/-- The ISOLATED request trips a node in motion (R91, R85). -/
theorem State.isolatedTest_trips (h : s.isolated = true) : s.isolatedTest.run.state = .tripped ∧ s.isolatedTest.run.trip = true := by
  have hm : s.run.state.inMotion = true := by
    simp only [State.isolated, Bool.and_eq_true] at h
    exact h.2
  rw [State.isolatedTest, if_pos h, State.requestLocal, State.request_tripping rfl (fun e => by rw [e] at hm; cases hm)
    (fun e => by rw [e] at hm; cases hm)]
  obtain ⟨h1, h2, -⟩ := s.countFurther.enterTripped_fields (s.localRequest .isolated s.ownNumber)
  exact ⟨h1, h2⟩

/-- What the loss of a signal leaves when the side goes DOWN: the side dropped with its signal and its reception gone (R175). -/
theorem State.loseSignal_eq (h : (s.side d).signal = true) (hn : (s.side d).state ≠ .down) : s.loseSignal d =
    State.isolatedTest (State.dropped d 3 ((s.onSide d (fun x => { x with signal := false })).endReception d.receives)) := by
  have hs : ((s.onSide d fun x => { x with signal := false }).endReception d.receives).side d =
      { s.side d with signal := false } := (State.onLane_side _ _ _ _).trans (s.onSide_side d _)
  rw [State.loseSignal, if_pos h]
  dsimp only
  rw [hs, if_neg hn, State.sideDown_eq]

/-- Settles O39: the side through its moves, and the ISOLATED test on what a loss of signal has left. -/
theorem signalMovesTheSide : Obligations.SignalMovesTheSide := by
  intro s d hc
  have hexec : ∀ f : State → State, s.whileRunning f = (f s.settle).settle := State.whileRunning_eq hc
  refine ⟨fun h => ?_, fun h h0 => ?_, fun h hn => ?_⟩
  · obtain ⟨hside, hd⟩ := State.gainSignal_facts (s := s.settle) h
    exact ⟨_, congrArg Host.Outcome.next (hexec _), hd, hside.side, hside.lane, hside.run⟩
  · obtain ⟨hside, hd⟩ := State.expireHold_facts (s := s.settle) h h0
    exact ⟨_, congrArg Host.Outcome.next (hexec _), hd, hside.side, hside.lane, hside.run⟩
  · obtain ⟨u, hu⟩ : ∃ u, u = (s.settle.onSide d fun x => { x with signal := false }).endReception d.receives := ⟨_, rfl⟩
    have hl : s.settle.loseSignal d = (u.dropped d 3).isolatedTest := by rw [hu]; exact State.loseSignal_eq h hn
    have hud : u.side d = { s.side d with signal := false } := by
      rw [hu]; exact (State.onLane_side _ _ _ _).trans (s.settle.onSide_side d _)
    have huk : ∀ k, k ≠ d → u.side k = s.side k := fun k hk => by
      rw [hu]; exact (State.onLane_side _ _ _ _).trans (s.settle.onSide_side_other d k _ hk)
    have hur : (u.lane d.receives).receiving = none := by
      rw [hu]; exact congrArg LaneRec.receiving (State.onLane_lane _ _ _)
    have hut : u.lane d.transmits = s.lane d.transmits := by
      rw [hu]; exact (State.onLane_lane_other _ _ _ _ (receives_ne_transmits d).symm).trans (s.settle.onSide_lane d _ _)
    have hrun : u.run = s.run ∧ u.items = s.items := by rw [hu]; exact ⟨rfl, rfl⟩
    obtain ⟨g1, g2, g3, g4, g5, g6⟩ := u.dropped_frame (d := d) 3
    have hring := (u.dropped d 3).isolatedTest_rewinds.keeps_ring
    have hside := State.side_of_ring hring
    have hlane := State.lane_of_ring hring
    have hiso := State.isolated_iff_of_down (s := u.dropped d 3) (d := d) (by rw [g1])
    rw [g5, g6, hrun.1, hrun.2] at hiso
    refine ⟨(s.settle.loseSignal d).settle, congrArg Host.Outcome.next (hexec _), ?_⟩
    rw [hl]
    refine ⟨?_, fun k hk => ?_, ?_, ?_, fun ⟨k, hk, hkd⟩ hr hm => ?_, fun ho => ?_⟩
    · exact (hside d).trans (g1.trans (by rw [hud]))
    · exact (hside k).trans ((g2 k hk).trans (huk k hk))
    · exact (congrArg LaneRec.receiving ((hlane _).trans g3)).trans hur
    · refine (congrArg LaneRec.queue (hlane _)).trans (g4.trans ?_)
      rw [hud, hut]
    · exact State.isolatedTest_trips (hiso.mpr ⟨⟨k, hk, by rw [g2 k hk, huk k hk]; exact hkd⟩, hr, hm⟩)
    · have hni : ¬ (u.dropped d 3).isolated = true := fun e => by
        obtain ⟨⟨k, hk, hkd⟩, hr, hm⟩ := hiso.mp e
        rw [g2 k hk, huk k hk] at hkd
        rcases ho with ho | ho | ho
        · exact ho k hk hkd
        · exact hr ho
        · rw [ho] at hm; cases hm
      rw [State.isolatedTest, if_neg hni]
      exact g5.trans hrun.1

end Sys2Proof.Machine

namespace Sys2Proof.Machine

variable {s : State} {tag : Byte} {code n : Nat} {k : OrderKind} {a b : Nat} {args : List Word} {allowed : List RunState}

/-! ### An order originated (R99, R102) -/

/-- The record that an origination forms, read off the rules (R99, R102). -/
theorem State.newOrder_eq (s : State) (k : OrderKind) (a b : Nat) : s.newOrder k a b = s.orderMade k a b := by
  cases k <;> rfl

/-- The order unit after an origination (R102). -/
def State.ordersWith (s : State) (o : Order) : Orders :=
  { s.orders with pending := insertOrder o s.orders.pending, highest := s.orders.highest + 1, carried := some o.epoch }

/-- An order entered as the carried one and counted (R102). -/
def State.booked (s : State) (o : Order) : State := State.bump .ordersOriginated { s with orders := s.ordersWith o }

theorem State.originate_eq (s : State) (k : OrderKind) (a b : Nat) : s.originate k a b =
    if k = .start then (s.booked (s.orderMade k a b)).enterCountdown (s.orderMade k a b).id
    else s.booked (s.orderMade k a b) := by
  rw [← State.newOrder_eq]
  rfl

theorem State.emptyWindows_port (s : State) : s.emptyWindows.port = s.port := by
  unfold State.emptyWindows
  exact foldl_keeps State.port _ (fun t j => t.onPeer_port j _) stations s

theorem State.enterCountdown_counter (i : OrderId) (s : State) {c : Counter} (h : c.place ≠ Counter.eventOverflow.place) :
    (s.enterCountdown i).counter c = s.counter c := by
  unfold State.enterCountdown State.counter
  rw [State.emptyWindows_port]
  exact s.post_counter .runState _ _ h

/-- Every window empty, every hold run 0 (R76, R150). -/
theorem State.emptyWindows_peer (s : State) (j : Station) : s.emptyWindows.peer j = { s.peer j with window := [], holdRun := 0 } := by
  obtain ⟨v, hv, hg⟩ := State.onPeers_get (fun _ p => { p with window := [], holdRun := 0 }) stations (by decide) s
  rw [State.emptyWindows, hv]
  refine (hg j).trans ?_
  rw [if_pos (by rw [stations_eq]; exact List.mem_finRange j)]

theorem State.enterCountdown_peer (i : OrderId) (s : State) (j : Station) :
    (s.enterCountdown i).peer j = { s.peer j with window := [], holdRun := 0 } := by
  refine (State.emptyWindows_peer _ j).trans ?_
  show { (s.changeState .countdown).peer j with window := [], holdRun := 0 } = _
  unfold State.peer
  rw [State.changeState_peers]

theorem State.enterCountdown_adoption (i : OrderId) (s : State) : (s.enterCountdown i).run.adoption = s.time.cycle := by
  unfold State.enterCountdown
  rw [State.emptyWindows_run]
  exact congrArg Time.cycle (s.changeState_time .countdown)

theorem State.emptyWindows_sched (s : State) : s.emptyWindows.sched = s.sched := by
  unfold State.emptyWindows
  exact foldl_keeps State.sched _ (fun t j => t.onPeer_sched j _) stations s

theorem State.enterCountdown_sched (i : OrderId) (s : State) : (s.enterCountdown i).sched = s.sched := by
  unfold State.enterCountdown
  rw [State.emptyWindows_sched]
  exact s.changeState_sched .countdown

/-! ### The commands that originate (R101, R202) -/

/-- An order command in its run states with its arguments in range comes to the BUSY test (R101, R202). -/
theorem orderOwner_passes (hn : args.length = n) (hs : s.run.state ∈ allowed) (hr : ∀ w ∈ args, w.toNat ≤ 65535) :
    orderOwner n args allowed k b s = s.commandOrder k (argAt args 0).toNat b := by
  have ht : ∀ l : List Word, (∀ w ∈ l, w.toNat ≤ 65535) → firstOffence (orderTests l) = none := by
    intro l
    induction l with
    | nil => exact fun _ => rfl
    | cons w l ih =>
      intro h
      obtain ⟨hw, hl⟩ := List.forall_mem_cons.mp h
      have hin : inRange w 0 65535 = true := by simpa [inRange] using hw
      have hi := ih hl
      unfold orderTests at hi ⊢
      rw [List.map_cons, hin, firstOffence, hi]
      rfl
  rw [orderOwner, withCount_of_eq hn, inStates_of_mem hs, withRanges, ht args hr]

theorem State.orderCommand_eq (h : s.takesCommands) (hn : args.length = n) (hs : s.run.state ∈ allowed)
    (hr : ∀ w ∈ args, w.toNat ≤ 65535) : s.command code tag args (orderOwner n args allowed k b) =
      ((s.inProgress code tag n).commandOrder k (argAt args 0).toNat b).settle := by
  rw [State.command_eq h, hn, orderOwner_passes (s := s.inProgress code tag n) hn hs hr]

/-- With an order carried or four pending the command is answered BUSY (R101). -/
theorem State.commandOrder_busy (h : s.orders.carried ≠ none ∨ 4 ≤ s.orders.pending.length) :
    ((s.inProgress code tag n).commandOrder k a b).settle = s.replied code tag n .busy [] := by
  have hm : (s.inProgress code tag n).mayOriginate = false := by
    show (s.orders.carried.isNone && decide (s.orders.pending.length < 4)) = false
    rcases h with h | h
    · rw [Option.isNone_eq_false_iff.mpr (Option.isSome_iff_ne_none.mpr h), Bool.false_and]
    · rw [decide_eq_false (by omega), Bool.and_false]
  rw [State.commandOrder, if_neg (by rw [hm]; decide)]
  rfl

/-- What an order command leaves that originates `o` (R102, R76). -/
structure State.Originated (s : State) (code : Nat) (tag : Byte) (o : Order) (t : State) : Prop where
  reply : t.hasReply code tag .ok [BitVec.ofNat 32 o.epoch.toNat, o.effective]
  orders : t.orders = s.ordersWith o
  count : t.counter .ordersOriginated = min 4294967295 (s.counter .ordersOriginated + 1)
  drive : t.drive = s.drive
  sched : t.sched = s.sched
  start : o.kind = .start → t.run.state = .countdown ∧ t.run.adoption = s.time.cycle ∧
    t.run.countdown = some { epoch := o.epoch, origin := o.origin } ∧
    ∀ j, t.peer j = { s.peer j with window := [], holdRun := 0 }
  other : o.kind ≠ .start → t.run = s.run ∧ t.peers = s.peers

theorem State.commandOrder_originates (hc : s.orders.carried = none) (hl : s.orders.pending.length < 4) :
    s.Originated code tag (s.orderMade k a b) ((s.inProgress code tag n).commandOrder k a b).settle := by
  have hm : (s.inProgress code tag n).mayOriginate = true := by
    show (s.orders.carried.isNone && decide (s.orders.pending.length < 4)) = true
    rw [hc, decide_eq_true hl]
    rfl
  obtain ⟨u, hu⟩ : ∃ u, u = (s.inProgress code tag n).booked (s.orderMade k a b) := ⟨_, rfl⟩
  have hcount : u.counter .ordersOriginated = min 4294967295 (s.counter .ordersOriginated + 1) := by
    rw [hu]
    exact State.bump_counter _ _
  have hreply : ∀ v : State, v.port.reply = u.port.reply → (v.finish .ok [word (s.orderMade k a b).epoch.toNat,
      (s.orderMade k a b).effective]).settle.hasReply code tag .ok
        [BitVec.ofNat 32 (s.orderMade k a b).epoch.toNat, (s.orderMade k a b).effective] := fun v hv =>
    State.finish_hasReply (r := { tag := tag, code := code, status := .pending, words := [] }) (hv.trans (by rw [hu]; rfl))
  have hown : (s.inProgress code tag n).orderMade k a b = s.orderMade k a b := rfl
  have hmake : (s.inProgress code tag n).commandOrder k a b =
      ((if k = .start then u.enterCountdown (s.orderMade k a b).id else u).finish .ok
        [word (s.orderMade k a b).epoch.toNat, (s.orderMade k a b).effective]) := by
    rw [State.commandOrder, if_pos hm, State.newOrder_eq, State.originate_eq, hown, ← hu]
  have huo : u.orders = s.ordersWith (s.orderMade k a b) := by rw [hu]; rfl
  have hud : u.drive = s.drive := by rw [hu]; rfl
  have hus : u.sched = s.sched := by rw [hu]; rfl
  rw [hmake]
  by_cases hk : k = .start
  · obtain ⟨v, hv⟩ : ∃ v, v = u.enterCountdown (s.orderMade k a b).id := ⟨_, rfl⟩
    obtain ⟨hstate, -, hid, -, -, hdrive, horders, -, -, htally⟩ := u.enterCountdown_fields (s.orderMade k a b).id
    have hpeer := u.enterCountdown_peer (s.orderMade k a b).id
    have hsched := u.enterCountdown_sched (s.orderMade k a b).id
    have hadopt := u.enterCountdown_adoption (s.orderMade k a b).id
    have hc := State.enterCountdown_counter (s.orderMade k a b).id u (c := .ordersOriginated) (by decide)
    rw [← hv] at hstate hid hdrive horders htally hpeer hsched hadopt hc
    rw [if_pos hk, ← hv]
    refine ⟨hreply v (State.reply_of_tally htally), horders.trans huo, hc.trans hcount, hdrive.trans hud, hsched.trans hus,
      fun _ => ⟨hstate, hadopt.trans ?_, hid, fun j => (hpeer j).trans ?_⟩, fun h => absurd hk h⟩
    · rw [hu]; rfl
    · rw [hu]; rfl
  · rw [if_neg hk]
    refine ⟨hreply u rfl, huo, hcount, hud, hus, fun h => absurd h hk, fun _ => ⟨?_, ?_⟩⟩
    · rw [hu]; rfl
    · rw [hu]; rfl

/-- Settles O28: each command comes to the BUSY test, and past it originates its order. -/
theorem commandsOriginateOrders : Obligations.CommandsOriginateOrders := by
  intro s tag a b h ha hb
  have h1 : ∀ w ∈ [a], w.toNat ≤ 65535 := by simpa using ha
  have h2 : ∀ w ∈ [a, b], w.toNat ≤ 65535 := by simpa using ⟨ha, hb⟩
  have hstart : s.run.state = .ready → exec (.start tag [a, b]) s =
      .next ((s.inProgress 11 tag 2).commandOrder .start a.toNat b.toNat).settle := fun hs =>
    congrArg Host.Outcome.next (State.orderCommand_eq h rfl (by simp [hs]) h2)
  have hpause : s.run.state = .run → exec (.pause tag [a]) s =
      .next ((s.inProgress 12 tag 1).commandOrder .pause a.toNat 0).settle := fun hs =>
    congrArg Host.Outcome.next (State.orderCommand_eq h rfl (by simp [hs]) h1)
  have hresume : s.run.state = .paused → exec (.resume tag [a]) s =
      .next ((s.inProgress 13 tag 1).commandOrder .resume a.toNat 0).settle := fun hs =>
    congrArg Host.Outcome.next (State.orderCommand_eq h rfl (by simp [hs]) h1)
  have hlevel : s.run.state = .run ∨ s.run.state = .pausing ∨ s.run.state = .paused → exec (.setLevel tag [a, b]) s =
      .next ((s.inProgress 14 tag 2).commandOrder .level a.toNat b.toNat).settle := fun hs =>
    congrArg Host.Outcome.next (State.orderCommand_eq h rfl (by simpa using hs) h2)
  refine ⟨fun hc hl i o code hi => ?_, fun hbusy => ⟨fun hs => ?_, fun hs => ?_, fun hs => ?_, fun hs => ?_⟩⟩
  · suffices h : ∃ t, exec i s = .next t ∧ s.Originated code tag o t by
      obtain ⟨t, ht, g⟩ := h
      exact ⟨t, ht, g.reply, g.orders, g.count, g.drive, g.sched, g.start, g.other⟩
    rcases hi with ⟨hs, rfl, rfl, rfl⟩ | ⟨hs, rfl, rfl, rfl⟩ | ⟨hs, rfl, rfl, rfl⟩ | ⟨hs, rfl, rfl, rfl⟩
    · exact ⟨_, hstart hs, State.commandOrder_originates hc hl⟩
    · exact ⟨_, hpause hs, State.commandOrder_originates hc hl⟩
    · exact ⟨_, hresume hs, State.commandOrder_originates hc hl⟩
    · exact ⟨_, hlevel hs, State.commandOrder_originates hc hl⟩
  · rw [hstart hs, State.commandOrder_busy hbusy]
  · rw [hpause hs, State.commandOrder_busy hbusy]
  · rw [hresume hs, State.commandOrder_busy hbusy]
  · rw [hlevel hs, State.commandOrder_busy hbusy]

end Sys2Proof.Machine

namespace Sys2Proof.Machine

variable {s t u : State} {a : BoundaryAction} {l : List BoundaryAction}

/-! ### An output instant outside the states that play (R5, R43) -/

/-- What an instant outside the playing states and PAUSED leaves. -/
def State.stand (s : State) : Run × Vector Peer 16 × Servo × Items := (s.run, s.peers, s.servo, s.items)

theorem State.post_stand (k : EventKind) (x y : Word) (s : State) : (s.post k x y).stand = s.stand := by
  have hi : (s.post k x y).items = s.items := State.items_of_steady (State.steady_of_quiet (s.post_quiet k x y))
  unfold State.stand
  rw [hi]
  simp

/-- With nothing consumed and no station late only COUPLING_APPLIED may be reported (R27). -/
theorem State.report_stand {f : InstantFacts} (ht : f.taken = none) (hl : f.late = []) (r : InstantReport) (s : State) :
    (s.report f r).stand = s.stand := by
  cases r with
  | coupling =>
    simp only [State.report]
    split
    · rfl
    · exact s.post_stand _ _ _
  | segment | underrun | markers => simp [State.report, ht]
  | late j => simp [State.report, hl]

theorem State.instantFacts_stand (hp : s.run.state.playing = false) (hr : s.run.state ≠ .paused)
    (hc : s.run.state.computes = true) : s.instantFacts.1.stand = s.stand := by
  obtain ⟨_, _, _, _, _, hready⟩ := s.instantReady_frame
  have hheld : s.instantHeld = s.instantReady := by
    rw [State.instantHeld, RunState.not_coupling hp hr, if_neg (by decide)]
  obtain ⟨_, hdrive⟩ := State.computeDrive_frame s.instantSum s.instantReady
  rw [State.instantFacts_of_computes hc, hheld, hdrive, hready]
  rfl

theorem State.instant_stand (hp : s.run.state.playing = false) (hr : s.run.state ≠ .paused)
    (hc : s.run.state.computes = true) (first : List InstantReport) : (s.instant first).stand = s.stand := by
  have hact : ∀ v : State, v.run.state = s.run.state → (v.actInstant first).stand = v.stand := by
    intro v hv
    rw [← hv] at hp hr hc
    rw [State.actInstant_eq, State.consume_of_not_playing hp]
    refine (foldl_keeps State.stand _ (fun w r => w.report_stand ?_ (State.rest_late hp hr) r) _ _).trans
      (State.instantFacts_stand hp hr hc)
    show v.consume.2 = none
    rw [State.consume_of_not_playing hp]
  unfold State.instant
  split
  · rfl
  · exact (hact { s.elapse s.edgesToInstant with time := { (s.elapse s.edgesToInstant).time with mark := true } } rfl).trans rfl

/-! ### The boundary that completes the assembly (R73) -/

theorem State.takeReport_idle (h1 : s.run.state ≠ .pausing) (h2 : s.run.state ≠ .stopping) (r : RampReport) :
    (s.takeReport r).run = s.run := by
  cases r with
  | nothing => rfl
  | rampAtZero =>
    have he : s.takeReport .rampAtZero = s.bring .rampEnd := if_neg h1
    rw [he]
    rfl
  | descentAtZero =>
    have he : s.takeReport .descentAtZero = s.bring .rampEnd := if_neg h2
    rw [he]
    rfl

/-- ASSEMBLY or STANDBY: no ramp's end, no due order and no side concerns the run controller. -/
def RunState.gathers (r : RunState) : Prop := r = .assembly ∨ r = .standby

theorem State.stepRamps_gathers (h : t.run.state.gathers) : t.stepRamps.run = t.run := by
  have h1 : t.run.state ≠ .offline ∧ t.run.state ≠ .tripped ∧ t.run.state ≠ .pausing ∧ t.run.state ≠ .stopping := by
    rcases h with h | h <;> rw [h] <;> decide
  obtain ⟨ho, ht, hp, hs⟩ := h1
  rw [State.stepRamps_eq ho ht, State.stepRunRamp_eq]
  exact State.takeReport_idle (s := t.levelStepped.runStepped) hp hs _

theorem State.takeOrder_gathers (h : t.run.state.gathers) (o : Order) : (t.takeOrder o).run = t.run := by
  have hu : (t.retireOrder o).unfit o := by
    have hr : (t.retireOrder o).run = t.run := rfl
    unfold State.unfit
    rw [hr]
    rcases h with h | h <;> rw [h] <;> cases o.kind <;> simp
  rw [State.takeOrder, State.settleOrder_unfit hu]
  exact State.declareInapplicable_run (s := t.retireOrder o) o

theorem State.takeDueOrders_gathers (h : t.run.state.gathers) : t.takeDueOrders.run = t.run := by
  unfold State.takeDueOrders
  split
  · refine List.foldlRecOn (motive := fun v : State => v.run = t.run) _ _ rfl fun v hv o _ => ?_
    exact (State.takeOrder_gathers (by rw [hv]; exact h) o).trans hv
  · rfl

theorem State.isolatedTest_gathers (h : t.run.state.gathers) : t.isolatedTest = t := by
  rw [State.isolatedTest, if_neg]
  rcases h with h | h <;> simp [State.isolated, h, RunState.inMotion]

/-- What the acts `l` still to come of the completing boundary find: the servo not ready, the roster complete and no station about
to go silent; the node in ASSEMBLY short of its last count until the assembly test, in STANDBY after it (R73, R97). -/
structure Gathering (l : List BoundaryAction) (t : State) : Prop where
  servo : t.servo.ready = false
  roster : t.rosterComplete = true
  misses : ∀ j, .peerMiss j ∈ l → ¬ t.atMissLimit j
  state : (t.run.state = .assembly ∧ t.run.assembly = 15 ∧ .assemblyTest ∈ l) ∨
    (t.run.state = .standby ∧ t.run.assembly = 16 ∧ t.run.trip = false ∧ .assemblyComplete ∈ t.scratch.brought)

theorem Gathering.gathers (h : Gathering l t) : t.run.state.gathers := h.state.imp And.left And.left

/-- What an act leaves of the peers: their states, and the cycles of all but the station of a miss. -/
structure PeersStand (a : BoundaryAction) (t u : State) : Prop where
  servo : u.servo = t.servo
  items : u.items = t.items
  peers : ∀ j, (u.peer j).state = (t.peer j).state ∧ (u.peer j).expected = (t.peer j).expected
  cycles : ∀ j, a ≠ .peerMiss j → (u.peer j).cycles = (t.peer j).cycles

theorem PeersStand.of_harmless {n : Nat} (h : Harmless (fun j => a = .peerMiss j) n t u) : PeersStand a t u :=
  ⟨h.servo, h.items, fun j => ⟨(h.peers j).1, (h.peers j).2.1⟩, h.cycles⟩

theorem PeersStand.of_rigid (ha : plainAct a = false) (t : State) : PeersStand a t (t.act a) := by
  have hp : ∀ j, (t.act a).peer j = t.peer j := fun j => congrArg (·.get j) (congrArg Prod.fst (t.act_rigid ha))
  exact ⟨State.servo_of_steady (State.steady_of_quiet (t.act_quiet a)),
    State.items_of_steady (State.steady_of_quiet (t.act_quiet a)), fun j => by rw [hp j]; exact ⟨rfl, rfl⟩,
    fun j _ => by rw [hp j]⟩

theorem State.rosterComplete_congr (h : ∀ j, (u.peer j).state = (t.peer j).state ∧ (u.peer j).expected = (t.peer j).expected) :
    u.rosterComplete = t.rosterComplete := by
  unfold State.rosterComplete
  simp only [(h _).1, (h _).2]

/-- Every act but the assembly test leaves the run controller. -/
theorem Gathering.act_run (h : Gathering (a :: l) t) (ha : a ≠ .assemblyTest) :
    (t.act a).run = t.run ∧ PeersStand a t (t.act a) := by
  have hplain : ∀ {n : Nat}, Harmless (fun j => a = .peerMiss j) n t (t.act a) →
      (t.act a).run = t.run ∧ PeersStand a t (t.act a) := fun g => ⟨g.run, .of_harmless g⟩
  have hg := h.gathers
  cases a with
  | assemblyTest => exact absurd rfl ha
  | servoChecks => exact hplain (State.checkFeedback_harmless (.inl h.servo))
  | peerMiss j => exact hplain (State.countMiss_harmless (h.misses j List.mem_cons_self) rfl)
  | ringClosure => exact hplain t.examineLanes_harmless
  | isolated =>
    have he : t.act .isolated = t := State.isolatedTest_gathers hg
    exact hplain (n := 0) (by rw [he]; exact .refl t)
  | trim => exact hplain t.computeTrim_harmless
  | frameBuild => exact hplain t.buildFrame_harmless
  | rampStep => exact ⟨State.stepRamps_gathers hg, .of_rigid rfl t⟩
  | orders => exact ⟨State.takeDueOrders_gathers hg, .of_rigid rfl t⟩
  | countdownCheck =>
    have hne : t.run.state ≠ .countdown := by rcases hg with e | e <;> rw [e] <;> decide
    exact ⟨congrArg State.run (State.countdownCheck_of_ne hne), .of_rigid rfl t⟩

/-- The assembly test at the last count enters STANDBY, and deasserts the trip line (R73, R97). -/
theorem State.assemblyTest_completes (hs : t.run.state = .assembly) (hn : t.run.assembly = 15) (hr : t.rosterComplete = true)
    (hv : t.servo.ready = false) : t.assemblyTest.run.state = .standby ∧ t.assemblyTest.run.assembly = 16 ∧
      t.assemblyTest.run.trip = false ∧ .assemblyComplete ∈ t.assemblyTest.scratch.brought := by
  obtain ⟨v, hv'⟩ : ∃ v, v = State.bring .assemblyComplete { t with run := { t.run with assembly := t.run.assembly + 1 } } := ⟨_, rfl⟩
  have he : t.assemblyTest = v.enterStandby := by
    simp only [State.assemblyTest]
    rw [if_pos hs, if_pos hr, if_pos (by omega), hv']
  have hready : v.enterStandby = v.changeState .standby := by
    refine State.readyTest_of_unready (by rw [State.changeState_state]; decide) fun _ => ?_
    rw [(State.changeState_aside _ v).servo, hv']
    exact hv
  have hcount : v.run.assembly = 16 := by rw [hv']; exact congrArg (· + 1) hn
  have hbrought : Happening.assemblyComplete ∈ v.scratch.brought := by rw [hv']; exact List.mem_cons_self
  rw [he, hready]
  refine ⟨State.changeState_state _ _, ?_, State.changeState_trip _ _, ?_⟩
  · simp [State.changeState, hcount]
  · rw [(State.changeState_aside _ v).scratch]
    exact hbrought

theorem Gathering.act (h : Gathering (a :: l) t) (hn : a ∉ l) : Gathering l (t.act a) := by
  have hstand : PeersStand a t (t.act a) := by
    by_cases ha : a = .assemblyTest
    · subst ha; exact .of_rigid rfl t
    · exact (h.act_run ha).2
  refine ⟨?_, ?_, fun j hj => ?_, ?_⟩
  · rw [hstand.servo]; exact h.servo
  · rw [State.rosterComplete_congr hstand.peers]; exact h.roster
  · unfold State.atMissLimit
    rw [(hstand.peers j).1, hstand.items, hstand.cycles j fun e => hn (e ▸ hj)]
    exact h.misses j (List.mem_cons_of_mem a hj)
  · by_cases ha : a = .assemblyTest
    · subst ha
      rcases h.state with ⟨hs, hc, -⟩ | ⟨hs, hrest⟩
      · exact .inr (State.assemblyTest_completes hs hc h.roster h.servo)
      · have he : t.act .assemblyTest = t := State.assemblyTest_of_ne (by rw [hs]; decide)
        rw [he]
        exact .inr ⟨hs, hrest⟩
    · rw [(h.act_run ha).1]
      refine h.state.imp (fun ⟨hs, hc, hm⟩ => ⟨hs, hc, ?_⟩) fun ⟨hs, hc, ht, hb⟩ => ⟨hs, hc, ht, (t.act_moves a).keeps_brought hb⟩
      exact (List.mem_cons.mp hm).resolve_left (Ne.symm ha)

theorem Gathering.foldl (hl : l.Nodup) (h : Gathering l t) : Gathering [] (l.foldl State.act t) := by
  induction l generalizing t with
  | nil => exact h
  | cons a l ih =>
    obtain ⟨hn, hl⟩ := List.nodup_cons.mp hl
    exact ih hl (h.act hn)

/-- The completing boundary, in any order of its acts (R73). -/
theorem State.boundary_gathered (first : List BoundaryAction) (hs : s.run.state = .assembly) (hn : s.run.assembly = 15)
    (hr : s.rosterComplete = true) (hv : s.servo.ready = false) (hm : ∀ j, ¬ s.atMissLimit j) :
    Gathering [] (s.boundary first) := by
  have hl : (orderedBy first boundaryActions).Nodup := (Laws.boundary_acts_perm first).nodup_iff.mpr Laws.boundaryActions_nodup
  refine Gathering.foldl hl (t := s.opened) ?_
  have hi : s.opened.items = s.items := s.opened_items
  obtain ⟨_, _, _, _, _, _, _, _, e⟩ := s.opened_frame
  have hp : ∀ j, s.opened.peer j = s.peer j := fun j => by rw [e]; rfl
  refine ⟨?_, ?_, fun j _ => ?_, .inl ⟨?_, ?_, mem_boundaryOrder first _⟩⟩
  · have hlatch : s.latchFeedback.servo.ready = s.servo.ready := by
      unfold State.latchFeedback
      split <;> rfl
    rw [e]
    exact hlatch.trans hv
  · rw [State.rosterComplete_of_peers (by rw [e])]
    exact hr
  · unfold State.atMissLimit
    rw [hp j, hi]
    exact hm j
  · rw [e]; exact hs
  · rw [e]; exact hn

/-- Settles O10: a pending instant leaves what the completing boundary reads, and the boundary goes act by act. -/
theorem assemblyCompletes : Obligations.AssemblyCompletes := by
  intro s first hc hs hn hr hv hm
  obtain ⟨u, hu⟩ : ∃ u, u = (s.settle.instant []).settle := ⟨_, rfl⟩
  have hstand : u.stand = s.stand := by
    rw [hu]
    exact State.instant_stand (s := s.settle) (by show s.run.state.playing = false; rw [hs]; rfl)
      (by show s.run.state ≠ .paused; rw [hs]; decide) (by show s.run.state.computes = true; rw [hs]; rfl) []
  have hrun : u.run = s.run := congrArg Prod.fst hstand
  have hpeers : u.peers = s.peers := congrArg (fun c => c.2.1) hstand
  have hservo : u.servo = s.servo := congrArg (fun c => c.2.2.1) hstand
  have hitems : u.items = s.items := congrArg (fun c => c.2.2.2) hstand
  have hp : ∀ j, u.peer j = s.peer j := fun j => congrArg (·.get j) hpeers
  have hend := State.boundary_gathered (s := u) first (by rw [hrun]; exact hs) (by rw [hrun]; exact hn)
    (by rw [State.rosterComplete_of_peers hpeers]; exact hr) (by rw [hservo]; exact hv)
    fun j => by unfold State.atMissLimit; rw [hp j, hitems]; exact hm j
  have he : s.settle.endCycle first = u.boundary first := by rw [hu]; rfl
  obtain ⟨-, -, hnil⟩ | ⟨h1, h2, h3, hb⟩ := hend.state
  · exact absurd hnil List.not_mem_nil
  refine ⟨(u.boundary first).settle, ?_, ?_, h1, h2, h3⟩
  · show Host.Outcome.next (s.whileRunning _) = _
    rw [State.whileRunning_eq hc, State.bringing, he, if_pos hb]
  · show Host.Outcome.next (s.whileRunning _) = _
    rw [State.whileRunning_eq hc, he]

end Sys2Proof.Machine

namespace Sys2Proof.Machine

variable {s t u : State} {j : Station} {c : Copy} {f : Frame} {n : Nat}

/-! ### The filter's judgement of a copy, case by case (R160) -/

/-- The copy of a station comes to the judgement of its entry (R159). -/
theorem State.takeWaiting_judge (hw : s.waiting[n]? = some c) (hj : c.frame.source.toNat = stationNumber j) :
    s.takeWaiting n = State.judge j c { s with waiting := s.waiting.eraseIdx n } := by
  simp only [State.takeWaiting, hw, State.takeCopy, hj, stationOf?_stationNumber]

/-- The node with the copy at place `n` taken out of its queue (R159). -/
def State.unqueued (n : Nat) (s : State) : State := { s with scratch := .rest, waiting := s.waiting.eraseIdx n }

theorem State.copy_exec (hc : s.cond = .running) (hw : s.waiting[n]? = some c) (hj : c.frame.source.toNat = stationNumber j) :
    exec (.deliveryCopyTaken n) s = .next ((s.unqueued n).judge j c).settle := by
  show Host.Outcome.next (s.whileRunning _) = _
  rw [State.whileRunning_eq hc, State.takeWaiting_judge (s := s.settle) hw hj]
  rfl

/-- The distance of a copy's sequence from the last one accepted of its station (R160). -/
def State.ahead (s : State) (j : Station) (c : Copy) : Nat := (c.frame.sequence - (s.filter.get j).last).toNat

theorem State.judge_eq (j : Station) (c : Copy) (s : State) : s.judge j c =
    if !(s.filter.get j).valid then s.acceptFirst j c
    else if s.ahead j c = 0 then s.discardEqual j c (s.filter.get j)
    else if s.ahead j c < 32768 then s.acceptNewer j c (s.filter.get j) (s.ahead j c)
    else s.takeStale j c (s.filter.get j) := rfl

theorem State.judge_first (h : (s.filter.get j).valid = false) : s.judge j c = s.acceptFirst j c := by
  simp [State.judge_eq, h]

theorem State.judge_equal (h : (s.filter.get j).valid = true) (hd : s.ahead j c = 0) :
    s.judge j c = s.discardEqual j c (s.filter.get j) := by
  simp [State.judge_eq, h, hd]

theorem State.judge_newer (h : (s.filter.get j).valid = true) (h0 : s.ahead j c ≠ 0) (hd : s.ahead j c < 32768) :
    s.judge j c = s.acceptNewer j c (s.filter.get j) (s.ahead j c) := by
  rw [State.judge_eq, if_neg (by simp [h]), if_neg h0, if_pos hd]

theorem State.judge_stale (h : (s.filter.get j).valid = true) (hd : 32768 ≤ s.ahead j c) :
    s.judge j c = s.takeStale j c (s.filter.get j) := by
  have h0 : s.ahead j c ≠ 0 := by omega
  have hn : ¬ s.ahead j c < 32768 := by omega
  rw [State.judge_eq, if_neg (by simp [h]), if_neg h0, if_neg hn]

/-! ### What a station's frame may touch when the roster does not name it (R106, R139, R148) -/

/-- All but the entries of the stations, the highest epoch, the counters, the events and the scratch. -/
def State.bulk (s : State) : (Run × Drive × Sched × Arbiter × Words × Servo × Time) ×
    (Ring × List Order × List OrderId × Option Half × List Copy × Items × Option Reply) :=
  ((s.run, s.drive, s.sched, s.arb, s.store, s.servo, s.time),
    (s.ring, s.orders.pending, s.orders.history, s.orders.carried, s.waiting, s.port.items, s.port.reply))

/-- From s to t nothing has changed but counters, events, the highest epoch, and of the entries those of station j, its expected
flag and its window kept. -/
structure Confined (j : Station) (s t : State) : Prop where
  bulk : t.bulk = s.bulk
  peers : ∀ k, k ≠ j → t.peer k = s.peer k
  filters : ∀ k, k ≠ j → t.filter.get k = s.filter.get k
  expected : (t.peer j).expected = (s.peer j).expected
  window : (t.peer j).window = (s.peer j).window

theorem Confined.refl (j : Station) (s : State) : Confined j s s := ⟨rfl, fun _ _ => rfl, fun _ _ => rfl, rfl, rfl⟩

theorem Confined.trans (h : Confined j s t) (g : Confined j t u) : Confined j s u where
  bulk := g.bulk.trans h.bulk
  peers k hk := (g.peers k hk).trans (h.peers k hk)
  filters k hk := (g.filters k hk).trans (h.filters k hk)
  expected := g.expected.trans h.expected
  window := g.window.trans h.window

theorem State.bump_confined (k : Counter) (s : State) : Confined j s (s.bump k) := ⟨rfl, fun _ _ => rfl, fun _ _ => rfl, rfl, rfl⟩

theorem State.count_confined (k : Counter) (m : Nat) (s : State) : Confined j s (s.count k m) :=
  ⟨rfl, fun _ _ => rfl, fun _ _ => rfl, rfl, rfl⟩

theorem State.bring_confined (x : Happening) (s : State) : Confined j s (s.bring x) :=
  ⟨rfl, fun _ _ => rfl, fun _ _ => rfl, rfl, rfl⟩

theorem State.offerEpoch_confined (e : Half) (s : State) : Confined j s (s.offerEpoch e) :=
  ⟨rfl, fun _ _ => rfl, fun _ _ => rfl, rfl, rfl⟩

theorem State.post_confined (k : EventKind) (a b : Word) (s : State) : Confined j s (s.post k a b) := by
  rcases s.post_cases k a b with ⟨-, e⟩ | ⟨-, e⟩ <;> rw [e] <;> exact ⟨rfl, fun _ _ => rfl, fun _ _ => rfl, rfl, rfl⟩

theorem State.setFilter_confined (e : FilterEntry) (s : State) : Confined j s (s.setFilter j e) :=
  ⟨rfl, fun _ _ => rfl, fun k hk => put_get_other s.filter j k e hk, rfl, rfl⟩

theorem State.onPeer_confined {g : Peer → Peer} (he : (g (s.peer j)).expected = (s.peer j).expected)
    (hw : (g (s.peer j)).window = (s.peer j).window) : Confined j s (s.onPeer j g) where
  bulk := rfl
  peers k hk := s.onPeer_peer_other j k g hk
  filters _ _ := rfl
  expected := by rw [State.onPeer_peer]; exact he
  window := by rw [State.onPeer_peer]; exact hw

theorem State.setPeerState_confined (p : PeerState) (m : Nat) (s : State) : Confined j s (s.setPeerState j p m) := by
  simp only [State.setPeerState]
  split
  · exact .refl j s
  · exact (State.onPeer_confined rfl rfl).trans (State.post_confined _ _ _ _)

theorem State.reportProfile_confined (b : Byte) (s : State) : Confined j s (s.reportProfile j b) := by
  unfold State.reportProfile
  split
  · exact .refl j s
  · exact s.post_confined _ _ _

/-- A restart of station j empties its window (R144). -/
def State.emptied (j : Station) (s : State) : State := s.onPeer j fun p => { p with window := [] }

theorem Confined.emptied (h : Confined j s t) : Confined j (s.emptied j) (t.emptied j) where
  bulk := h.bulk
  peers k hk := by
    unfold State.emptied
    rw [State.onPeer_peer_other _ _ _ _ hk, State.onPeer_peer_other _ _ _ _ hk]
    exact h.peers k hk
  filters := h.filters
  expected := by
    unfold State.emptied
    rw [State.onPeer_peer, State.onPeer_peer]
    exact h.expected
  window := by
    unfold State.emptied
    rw [State.onPeer_peer, State.onPeer_peer]

/-- Where the handling of a copy begins: with a restart the window is emptied. -/
def State.renewed (j : Station) (restart : Bool) (s : State) : State := if restart then s.emptied j else s

theorem Confined.renewed (h : Confined j s t) (b : Bool) : Confined j (s.renewed j b) (t.renewed j b) := by
  cases b with
  | true => exact h.emptied
  | false => exact h

theorem State.renewed_bulk (b : Bool) (s : State) : (s.renewed j b).bulk = s.bulk := by cases b <;> rfl

theorem State.renewed_filter (b : Bool) (s : State) : (s.renewed j b).filter = s.filter := by cases b <;> rfl

theorem State.renewed_other (b : Bool) {k : Station} (hk : k ≠ j) (s : State) : (s.renewed j b).peer k = s.peer k := by
  cases b with
  | true => exact s.onPeer_peer_other j k (fun p => { p with window := [] }) hk
  | false => rfl

theorem State.renewed_peer (b : Bool) (s : State) :
    (s.renewed j b).peer j = { s.peer j with window := if b then [] else (s.peer j).window } := by
  cases b with
  | true => exact s.onPeer_peer j fun p => { p with window := [] }
  | false => rfl

/-- The copy is accepted as the restart of its station (R166). -/
def State.findsRestart (j : Station) (c : Copy) (s : State) : Bool :=
  (s.filter.get j).valid && decide (32768 ≤ s.ahead j c) && decide (15 ≤ (s.filter.get j).staleRun)

theorem State.findsRestart_iff : s.findsRestart j c = true ↔
    (s.filter.get j).valid = true ∧ 32768 ≤ s.ahead j c ∧ 15 ≤ (s.filter.get j).staleRun := by
  simp [State.findsRestart, and_assoc]

section Unexpected
variable (hx : (s.peer j).expected = false)
include hx

/-- Without a place in the roster a restart brings no roster loss (R144, R155). -/
theorem State.restartPeer_confined (b : Byte) : Confined j (s.emptied j) (s.restartPeer j b) := by
  simp only [State.restartPeer]
  rw [if_neg (by rintro ⟨-, h⟩; rw [hx] at h; cases h)]
  refine .trans ?_ ((State.setPeerState_confined _ _ _).trans (State.reportProfile_confined _ _))
  refine ⟨rfl, fun k hk => ?_, fun _ _ => rfl, ?_, ?_⟩
  · unfold State.emptied
    rw [State.onPeer_peer_other _ _ _ _ hk, State.onPeer_peer_other _ _ _ _ hk]
  · unfold State.emptied
    rw [State.onPeer_peer, State.onPeer_peer]
  · unfold State.emptied
    rw [State.onPeer_peer, State.onPeer_peer]

theorem State.testProfile_confined (b : Byte) : Confined j s (s.testProfile j b) := by
  simp only [State.testProfile]
  refine .trans ?_ (State.onPeer_confined rfl rfl)
  split
  · exact (State.setPeerState_confined _ _ s).trans (State.reportProfile_confined _ _)
  · rw [if_neg (by simp [State.profileChanged, hx])]
    exact .refl j s

omit hx in
theorem State.recordFrame_confined (f : Frame) (s : State) : Confined j s (s.recordFrame j f) := by
  simp only [State.recordFrame]
  split
  · exact .trans (State.onPeer_confined rfl rfl) (State.setPeerState_confined _ _ _)
  · exact State.onPeer_confined rfl rfl

theorem State.writeWindow_unexpected (f : Frame) : s.writeWindow j f = s := by simp [State.writeWindow, hx]

theorem State.skewCheck_unexpected (f : Frame) : s.skewCheck j f = s := by simp [State.skewCheck, State.skewChecked, hx]

theorem State.takeTiming_unexpected (f : Frame) (a : Nat) (x : Stamp) : s.takeTiming j f a x = s := by
  simp [State.takeTiming, State.timingUsable, hx]

theorem State.takeStopPart_unexpected (f : Frame) : s.takeStopPart j f = s := by simp [State.takeStopPart, hx]

/-- Of an order part only the epochs are read (R100, R106). -/
theorem State.takeOrderPart_confined (f : Frame) : Confined j s (s.takeOrderPart f j) := by
  simp only [State.takeOrderPart]
  split
  · exact s.offerEpoch_confined _
  · rename_i o _
    have he : ((s.offerEpoch f.highest).offerEpoch o.epoch).peer j = s.peer j := rfl
    rw [if_neg (by rw [he, hx]; simp)]
    exact (s.offerEpoch_confined _).trans (State.offerEpoch_confined _ _)

theorem State.takeFrame_confined (f : Frame) (b : Bool) : Confined j (s.renewed j b) (s.takeFrame j f b) := by
  have hstart : Confined j (s.renewed j b) (if b then s.restartPeer j f.profile else s) := by
    cases b with
    | true => exact State.restartPeer_confined hx f.profile
    | false => exact .refl j s
  have hpre : ((s.renewed j b).peer j).expected = false := by
    rw [State.renewed_peer]
    exact hx
  have hrecorded := hstart.trans ((State.testProfile_confined (hstart.expected.trans hpre) f.profile).trans
    (State.recordFrame_confined f _))
  have hlast := hrecorded.expected.trans hpre
  simp only [State.takeFrame]
  rw [State.writeWindow_unexpected hlast, State.skewCheck_unexpected hlast]
  exact hrecorded

theorem State.handOver_confined (c : Copy) (b : Bool) : Confined j (s.renewed j b) (s.handOver j c b) := by
  have hframe := State.takeFrame_confined hx c.frame b
  have hpre : ((s.renewed j b).peer j).expected = false := by
    rw [State.renewed_peer]
    exact hx
  have htaken := hframe.expected.trans hpre
  have horder := hframe.trans (State.takeOrderPart_confined htaken c.frame)
  unfold State.handOver
  rw [State.takeTiming_unexpected htaken, State.takeStopPart_unexpected (horder.expected.trans hpre)]
  exact horder

/-- Behind what an acceptance does ahead of the hand-over. -/
theorem Confined.handOver (h : Confined j s t) (c : Copy) (b : Bool) : Confined j (s.renewed j b) (t.handOver j c b) :=
  (h.renewed b).trans (State.handOver_confined (h.expected.trans hx) c b)

theorem State.acceptNewer_confined (c : Copy) (d : Nat) : Confined j s (s.acceptNewer j c (s.filter.get j) d) := by
  have hpath : Confined j s (s.reportPath j (s.filter.get j)) := by
    unfold State.reportPath
    split
    · exact (s.bring_confined _).trans (State.post_confined _ _ _ _)
    · exact .refl j s
  have hgap : ∀ v : State, Confined j v (v.countGap d) := fun v => by
    unfold State.countGap
    split
    · exact (v.bump_confined _).trans (State.count_confined _ _ _)
    · exact .refl j v
  have hset := (hpath.trans (hgap _)).trans (State.setFilter_confined (acceptedEntry c (s.filter.get j).nextSingleRun) _)
  exact Confined.handOver hx (hset.trans (State.bump_confined .accepted _)) c false

/-- The judgement of a copy confines itself to the entries of its station; the window is emptied where a restart is found. -/
theorem State.judge_confined (c : Copy) : Confined j (s.renewed j (s.findsRestart j c)) (s.judge j c) := by
  have hno : ¬ ((s.filter.get j).valid = true ∧ 32768 ≤ s.ahead j c ∧ 15 ≤ (s.filter.get j).staleRun) →
      s.renewed j (s.findsRestart j c) = s := fun h => by
    rw [Bool.eq_false_iff.mpr fun e => h (State.findsRestart_iff.mp e)]
    rfl
  cases hv : (s.filter.get j).valid with
  | false =>
    rw [hno (by simp [hv]), State.judge_first hv]
    exact Confined.handOver hx ((s.setFilter_confined _).trans (State.bump_confined _ _)) c false
  | true =>
    by_cases h0 : s.ahead j c = 0
    · rw [hno (by omega), State.judge_equal hv h0, State.discardEqual]
      split
      · exact s.bump_confined _
      · exact (s.setFilter_confined _).trans (State.bump_confined _ _)
    · by_cases hd : s.ahead j c < 32768
      · rw [hno (by omega), State.judge_newer hv h0 hd]
        exact State.acceptNewer_confined hx c _
      · rw [State.judge_stale hv (by omega), State.takeStale]
        by_cases hr : (s.filter.get j).staleRun + 1 < 16
        · rw [hno (by omega), if_pos hr]
          exact (s.setFilter_confined _).trans (State.bump_confined _ _)
        · rw [State.findsRestart_iff.mpr ⟨hv, by omega, by omega⟩, if_neg hr]
          exact Confined.handOver hx ((((s.bring_confined _).trans (State.setFilter_confined _ _)).trans
            (State.bump_confined _ _)).trans (State.bump_confined _ _)) c true

end Unexpected

/-- Settles O37: every block of the hand-over is confined to the station's own entries. -/
theorem unexpectedStationIsPowerless : Obligations.UnexpectedStationIsPowerless := by
  intro s n c j hc hw hj hx
  have hg := State.judge_confined (s := s.unqueued n) hx c
  have hb := hg.bulk.trans (State.renewed_bulk _ _)
  simp only [State.bulk, Prod.mk.injEq] at hb
  obtain ⟨⟨h1, h2, h3, h4, h5, h6, h7⟩, h8, h9, h10, h11, h12, h13, h14⟩ := hb
  refine ⟨_, State.copy_exec hc hw hj, h1, h2, h3, h4, h5, h6, h7, h8, h9, h10, h11, h12, h13, h14, fun k hk => ⟨?_, ?_⟩, ?_⟩
  · exact (hg.peers k hk).trans (State.renewed_other _ hk _)
  · exact (hg.filters k hk).trans (by rw [State.renewed_filter]; rfl)
  · refine hg.window.trans ?_
    rw [State.renewed_peer]
    exact if_congr State.findsRestart_iff rfl rfl

end Sys2Proof.Machine

namespace Sys2Proof.Machine

variable {s t u : State} {j : Station} {f : Frame}

/-! ### The peer table through requests and run states -/

theorem State.enterTripped_peers (q : StopRequest) (s : State) : (s.enterTripped q).peers = s.peers := by
  have hlatch : ((s.taken q).latch q).peers = s.peers := (s.taken_aside q).peers
  have hend : ∀ v : State, (((((v.setStopField q).changeState .tripped).freeze).setHold true).rewind).peers = v.peers := fun v =>
    (congrArg Prod.fst (State.rewind_rigid _)).trans ((v.setStopField q).changeState_peers .tripped)
  simp only [State.enterTripped]
  split
  · exact (hend _).trans hlatch
  · exact (hend _).trans hlatch

theorem State.enterStopping_peers (q : StopRequest) (s : State) : (s.enterStopping q).peers = s.peers := by
  refine (congrArg Prod.fst (State.firstStep_rigid _)).trans ?_
  exact ((((s.taken q).latch q).setStopField q).changeState_peers .stopping).trans (s.taken_aside q).peers

/-- No stop request touches the peer table (R82). -/
theorem State.request_peers (q : StopRequest) (s : State) : (s.request q).peers = s.peers := by
  have hnote : (s.countFurther.noteRequest q).peers = s.peers := (State.noteRequest_facts q s.countFurther).1.peers
  have hcancel : (s.countFurther.cancelCountdown q).peers = s.peers :=
    ((s.countFurther.taken_aside q).trans (State.returnToReady_aside _)).peers
  have hstop : (s.countFurther.enterStopping q).peers = s.peers := s.countFurther.enterStopping_peers q
  simp only [State.request]
  split
  case h_1 => rfl
  case h_2 => rfl
  case h_3 => exact s.countFurther.enterTripped_peers q
  case h_4 | h_5 | h_6 => exact hnote
  case h_7 => exact hcancel
  case h_8 | h_9 | h_10 => exact hstop
  case h_11 | h_12 => rfl
  case h_13 => exact hnote

theorem State.reportIncomplete_peers (s : State) : s.reportIncomplete.peers = s.peers := by
  unfold State.reportIncomplete
  split
  · rfl
  · exact s.changeState_peers _
  · exact s.changeState_peers _
  · rfl

theorem State.rosterLoss_peers (j : Station) (c : Cause) (b : Bool) (s : State) : (s.rosterLoss j c b).peers = s.peers := by
  obtain ⟨v, hv⟩ : ∃ v, v = if b && !s.rosterComplete then s.reportIncomplete else s := ⟨_, rfl⟩
  have hp : v.peers = s.peers := by
    rw [hv]
    split
    · exact s.reportIncomplete_peers
    · rfl
  have hq : ∀ m, (v.requestLocal c m).peers = s.peers := fun m => (State.request_peers _ v).trans hp
  simp only [State.rosterLoss, ← hv]
  split
  · split
    · exact hq _
    · exact hq _
    · exact hq _
    · exact hq _
    · exact hp
  · exact hp

/-! ### What a station's last frame leaves in its entry (R140, R144) -/

/-- The last frame record, the cycles since it, and the restarts of station j. -/
def State.heard (j : Station) (s : State) : LastFrame × Nat × Nat := ((s.peer j).last, (s.peer j).cycles, (s.peer j).restarts)

theorem State.heard_of_peers (h : t.peers = s.peers) : t.heard j = s.heard j := by
  unfold State.heard State.peer
  rw [h]

theorem State.onPeer_heard {g : Peer → Peer} (s : State) (k : Station)
    (h : ∀ p, (g p).last = p.last ∧ (g p).cycles = p.cycles ∧ (g p).restarts = p.restarts := by exact fun _ => ⟨rfl, rfl, rfl⟩) :
    (s.onPeer k g).heard j = s.heard j := by
  unfold State.heard
  by_cases e : j = k
  · subst e
    obtain ⟨h1, h2, h3⟩ := h (s.peer j)
    rw [State.onPeer_peer, h1, h2, h3]
  · rw [State.onPeer_peer_other _ _ _ _ e]

theorem State.setPeerState_heard (k : Station) (p : PeerState) (m : Nat) (s : State) :
    (s.setPeerState k p m).heard j = s.heard j := by
  simp only [State.setPeerState]
  split
  · rfl
  · exact (State.heard_of_peers (State.post_peers _ _ _ _)).trans (s.onPeer_heard k)

theorem State.movePeer_heard (k : Station) (p : PeerState) (m : Nat) (c : Cause) (s : State) :
    (s.movePeer k p m c).heard j = s.heard j := by
  simp only [State.movePeer]
  split
  · exact (State.heard_of_peers (State.rosterLoss_peers _ _ _ _)).trans (s.setPeerState_heard k p m)
  · exact s.setPeerState_heard k p m

theorem State.writeWindow_heard (k : Station) (f : Frame) (s : State) : (s.writeWindow k f).heard j = s.heard j := by
  have h : ∀ w, (s.onPeer k fun q => { q with window := w }).heard j = s.heard j := fun w =>
    s.onPeer_heard k
  simp only [State.writeWindow]
  split
  · split
    · exact (State.heard_of_peers rfl).trans (h _)
    · exact h _
  · rfl

theorem State.skewCheck_peers (k : Station) (f : Frame) (s : State) : (s.skewCheck k f).peers = s.peers := by
  unfold State.skewCheck
  split
  · split
    · exact State.request_peers _ _
    · split
      · rfl
      · split
        · rfl
        · exact State.request_peers _ _
  · rfl

theorem State.updateStepRun_heard (k : Station) (o : Int) (s : State) : (s.updateStepRun k o).heard j = s.heard j := by
  have h : ∀ n : Peer → Nat, (s.onPeer k fun p => { p with stepRun := n p }).heard j = s.heard j := fun n =>
    s.onPeer_heard k
  have hloss : ∀ v : State, (v.takeStepLoss k).heard j = v.heard j := fun v => by
    unfold State.takeStepLoss
    split
    · exact v.movePeer_heard k _ _ _
    · rfl
  unfold State.updateStepRun
  split
  · split
    · exact (hloss _).trans ((State.heard_of_peers rfl).trans (h fun _ => 0))
    · exact h fun p => p.stepRun + 1
  · exact h fun _ => 0

theorem State.takeOffset_heard (k : Station) (o : Int) (s : State) : (s.takeOffset k o).heard j = s.heard j := by
  unfold State.takeOffset
  split
  · exact (State.heard_of_peers (State.readyTest_aside _).peers).trans (s.setPeerState_heard k _ _)
  · rfl

theorem State.recordOffset_heard (k : Station) (r : Int) (s : State) : (s.recordOffset k r).heard j = s.heard j := by
  have h : (s.onPeer k fun p => { p with offset := limitOffset r }).heard j = s.heard j :=
    s.onPeer_heard k
  simp only [State.recordOffset]
  split
  · exact (State.heard_of_peers rfl).trans h
  · exact (State.heard_of_peers rfl).trans h

theorem State.considerAdoption_peers (k : Station) (f : Frame) (x : Stamp) (s : State) :
    (s.considerAdoption k f x).1.peers = s.peers := by
  unfold State.considerAdoption
  split
  · exact (State.post_peers _ _ _ _).trans rfl
  · rfl

theorem State.takeTiming_heard (k : Station) (f : Frame) (a : Nat) (x : Stamp) (s : State) :
    (s.takeTiming k f a x).heard j = s.heard j := by
  simp only [State.takeTiming]
  split
  · exact (State.takeOffset_heard k _ _).trans ((State.updateStepRun_heard k _ _).trans
      ((State.recordOffset_heard k _ _).trans (State.heard_of_peers (s.considerAdoption_peers k f x))))
  · rfl

/-- A countdown that an adopted order begins empties the windows, no more (R76). -/
theorem State.considerStart_heard (f : Frame) (o : Order) (s : State) : (s.considerStart f o).heard j = s.heard j := by
  unfold State.considerStart
  split
  · split
    · unfold State.heard
      rw [State.enterCountdown_peer]
    · exact State.heard_of_peers (s.post_peers _ _ _)
  · rfl

theorem State.placeAdopted_heard (f : Frame) (k : Station) (o : Order) (s : State) :
    (s.placeAdopted f k o).heard j = s.heard j := by
  unfold State.placeAdopted
  split
  · exact State.heard_of_peers (State.request_peers _ s)
  · split
    · exact State.heard_of_peers (State.request_peers _ s)
    · exact (State.considerStart_heard f o _).trans (State.heard_of_peers (State.post_peers _ _ _ _))

theorem State.displace_peers (e w : Order) (s : State) : (s.displace e w).peers = s.peers := by
  have hend : ∀ v : State, v.peers = s.peers →
      (if v.run.state = .countdown ∧ v.run.countdown = some e.id then v.returnToReady else v).peers = s.peers := by
    intro v hv
    split
    · exact v.returnToReady_aside.peers.trans hv
    · exact hv
  unfold State.displace
  refine hend _ ?_
  split
  · exact (State.post_peers _ _ _ _).trans rfl
  · rfl

theorem State.adopt_heard (f : Frame) (k : Station) (o : Order) (s : State) : (s.adopt f k o).heard j = s.heard j := by
  unfold State.adopt
  split
  · rfl
  split
  · rfl
  split
  · rfl
  split
  · exact (State.placeAdopted_heard f k o _).trans (State.heard_of_peers (s.displace_peers _ _))
  · split
    · exact State.heard_of_peers (State.request_peers _ s)
    · exact s.placeAdopted_heard f k o

theorem State.takeOrderPart_heard (f : Frame) (k : Station) (s : State) : (s.takeOrderPart f k).heard j = s.heard j := by
  simp only [State.takeOrderPart]
  split
  · rfl
  · split
    · exact State.adopt_heard f k _ _
    · rfl

theorem State.takeStopPart_peers (k : Station) (f : Frame) (s : State) : (s.takeStopPart k f).peers = s.peers := by
  simp only [State.takeStopPart]
  split
  · exact State.request_peers _ s
  · rfl

/-- What a frame record leaves (R140): the record, no cycles since, the restarts as they were. -/
theorem State.recordFrame_heard (j : Station) (f : Frame) (s : State) :
    (s.recordFrame j f).heard j = (f.record, 0, (s.peer j).restarts) := by
  have h : (s.onPeer j fun p => { p with last := f.record, shares := f.domain &&& s.items.domain != 0, cycles := 0 }).heard j =
      (f.record, 0, (s.peer j).restarts) := by
    unfold State.heard
    rw [State.onPeer_peer]
  simp only [State.recordFrame]
  split
  · exact (State.setPeerState_heard j _ _ _).trans h
  · exact h

/-- The profile test of an entry that has its evaluated state is no restart (R145). -/
theorem State.testProfile_evaluated {b : Byte} (h : (s.peer j).state = s.evaluated j b) :
    ((s.testProfile j b).peer j).restarts = (s.peer j).restarts := by
  have hu : (s.peer j).state ≠ .unseen := by
    rw [h]
    unfold State.evaluated
    split <;> decide
  have hc : s.profileChanged j b = false := by
    simp only [State.profileChanged]
    rw [h]
    unfold State.evaluated
    cases (s.peer j).expected <;> cases matchesProfile s.time.rate b <;> rfl
  simp only [State.testProfile]
  rw [if_neg hu, hc, State.onPeer_peer]
  rfl

theorem State.setPeerState_peer (j : Station) (p : PeerState) (m : Nat) (s : State) :
    (s.setPeerState j p m).peer j = { s.peer j with state := p } := by
  simp only [State.setPeerState]
  split
  · rename_i h
    rw [← h]
  · unfold State.peer
    rw [State.post_peers]
    exact s.onPeer_peer j fun q => { q with state := p }

/-- A restart counts one, and leaves the state evaluated (R144). -/
theorem State.restartPeer_evaluated (j : Station) (b : Byte) (s : State) :
    ((s.restartPeer j b).peer j).restarts = min 65535 ((s.peer j).restarts + 1) ∧
    ((s.restartPeer j b).peer j).state = (s.restartPeer j b).evaluated j b := by
  obtain ⟨v, hv⟩ : ∃ v, v = s.onPeer j fun p => { p with restarts := min 65535 (p.restarts + 1), window := [], holdRun := 0 } :=
    ⟨_, rfl⟩
  have hrate : (s.restartPeer j b).time.rate = s.time.rate := State.rate_of_steady (State.steady_of_quiet (s.restartPeer_quiet j b))
  have hpeer : (s.restartPeer j b).peer j = { v.peer j with state := v.evaluated j b } := by
    have hshown : ((v.setPeerState j (v.evaluated j b) 5).reportProfile j b).peers = (v.setPeerState j (v.evaluated j b) 5).peers := by
      unfold State.reportProfile
      split
      · rfl
      · exact State.post_peers _ _ _ _
    have hpeers : (s.restartPeer j b).peers = (v.setPeerState j (v.evaluated j b) 5).peers := by
      simp only [State.restartPeer, ← hv]
      split
      · exact (State.rosterLoss_peers _ _ _ _).trans hshown
      · exact hshown
    exact (congrArg (fun x : Vector Peer 16 => x.get j) hpeers).trans (v.setPeerState_peer j _ _)
  have hvp : v.peer j = { s.peer j with restarts := min 65535 ((s.peer j).restarts + 1), window := [], holdRun := 0 } := by
    rw [hv]
    exact s.onPeer_peer j _
  refine ⟨by rw [hpeer, hvp], ?_⟩
  have hvr : v.time.rate = s.time.rate := by rw [hv]; rfl
  unfold State.evaluated
  rw [hrate, hpeer]
  show v.evaluated j b = _
  unfold State.evaluated
  rw [hvr]

/-- The frame handed over whole: its record, no cycles since, and with a restart one more of them (R140, R144). -/
theorem State.takeFrame_heard (j : Station) (f : Frame) (s : State) (b : Bool) :
    ((s.takeFrame j f b).peer j).last = f.record ∧ ((s.takeFrame j f b).peer j).cycles = 0 ∧
    (b = true → ((s.takeFrame j f b).peer j).restarts = min 65535 ((s.peer j).restarts + 1)) := by
  obtain ⟨v, hv⟩ : ∃ v, v = (if b then s.restartPeer j f.profile else s).testProfile j f.profile := ⟨_, rfl⟩
  have h : (s.takeFrame j f b).heard j = (f.record, 0, (v.peer j).restarts) := by
    simp only [State.takeFrame]
    rw [← hv]
    exact (State.heard_of_peers (State.skewCheck_peers j f _)).trans ((State.writeWindow_heard j f _).trans
      (v.recordFrame_heard j f))
  simp only [State.heard, Prod.mk.injEq] at h
  obtain ⟨h1, h2, h3⟩ := h
  refine ⟨h1, h2, fun hb => h3.trans ?_⟩
  obtain ⟨hcount, hstate⟩ := s.restartPeer_evaluated j f.profile
  rw [hv, hb]
  exact (State.testProfile_evaluated hstate).trans hcount

theorem State.handOver_heard (j : Station) (c : Copy) (b : Bool) (s : State) :
    (s.handOver j c b).heard j = (s.takeFrame j c.frame b).heard j :=
  (State.heard_of_peers (State.takeStopPart_peers j c.frame _)).trans ((State.takeOrderPart_heard c.frame j _).trans
    (State.takeTiming_heard j c.frame c.age c.stamp _))

/-! ### Filter table and waiting copies through the hand-over -/

theorem State.takeTiming_filter (j : Station) (f : Frame) (a : Nat) (x : Stamp) (s : State) :
    (s.takeTiming j f a x).filter = s.filter ∧ (s.takeTiming j f a x).waiting.length = s.waiting.length := by
  have hadopt : (s.considerAdoption j f x).1.filter = s.filter ∧
      (s.considerAdoption j f x).1.waiting.length = s.waiting.length := by
    unfold State.considerAdoption
    split
    · have hq := fun v : State => State.post_quiet v .cycleAdopted (word (stationNumber j)) s.time.cycle
      refine ⟨(State.filter_of_quiet (hq _)).trans rfl, ?_⟩
      refine (congrArg List.length (State.waiting_of_quiet (hq _))).trans ?_
      exact List.length_map _
    · exact ⟨rfl, rfl⟩
  simp only [State.takeTiming]
  split
  · have hq := fun (v : State) r o => (State.takeOffset_quiet j o _).trans
      ((State.updateStepRun_quiet j o _).trans (State.recordOffset_quiet j r v))
    exact ⟨(State.filter_of_quiet (hq _ _ _)).trans hadopt.1, (congrArg List.length (State.waiting_of_quiet (hq _ _ _))).trans hadopt.2⟩
  · exact ⟨rfl, rfl⟩

theorem State.handOver_filter (j : Station) (c : Copy) (b : Bool) (s : State) :
    (s.handOver j c b).filter = s.filter ∧ (s.handOver j c b).waiting.length = s.waiting.length := by
  have hq := fun v : State => (State.takeStopPart_quiet j c.frame _).trans (State.takeOrderPart_quiet c.frame j v)
  have hframe := s.takeFrame_quiet j c.frame b
  obtain ⟨h1, h2⟩ := State.takeTiming_filter j c.frame c.age c.stamp (s.takeFrame j c.frame b)
  exact ⟨(State.filter_of_quiet (hq _)).trans (h1.trans (State.filter_of_quiet hframe)),
    (congrArg List.length (State.waiting_of_quiet (hq _))).trans (h2.trans (congrArg List.length (State.waiting_of_quiet hframe)))⟩

end Sys2Proof.Machine

namespace Sys2Proof.Machine

variable {s t u v : State} {j : Station} {c : Copy} {n : Nat}

/-! ### The copies that the filter accepts (R161, R162, R166) -/

/-- The copy is accepted: the first of its station, a newer one, or the 16th stale one in a row (R161, R162, R166). -/
def State.accepts (j : Station) (c : Copy) (s : State) : Prop :=
  (s.filter.get j).valid = false ∨ (1 ≤ s.ahead j c ∧ s.ahead j c < 32768) ∨
    (32768 ≤ s.ahead j c ∧ 15 ≤ (s.filter.get j).staleRun)

/-- The single-lane run that an acceptance leaves (R167). -/
def State.nextRun (j : Station) (c : Copy) (s : State) : Nat :=
  if (s.filter.get j).valid = true ∧ s.ahead j c < 32768 ∧ (s.filter.get j).onA ≠ (s.filter.get j).onB then
    min 64 ((s.filter.get j).singleRun + 1)
  else 0

/-- What stands ahead of the hand-over of an accepted copy of station j. -/
structure Opening (j : Station) (c : Copy) (s v : State) : Prop where
  filter : v.filter = put s.filter j (acceptedEntry c (s.nextRun j c))
  waiting : v.waiting = s.waiting
  peers : v.peers = s.peers
  steady : v.steady = s.steady
  resynchronised : (s.filter.get j).valid = true → 32768 ≤ s.ahead j c → .resynchronisation ∈ v.scratch.brought
  degraded : (s.filter.get j).valid = true → s.ahead j c < 32768 → (s.filter.get j).onA ≠ (s.filter.get j).onB →
    (s.filter.get j).singleRun = 63 → .pathDegraded ∈ v.scratch.brought

theorem State.reportPath_peers (j : Station) (e : FilterEntry) (s : State) : (s.reportPath j e).peers = s.peers := by
  unfold State.reportPath
  split
  · exact State.post_peers _ _ _ _
  · rfl

theorem State.countGap_frame (d : Nat) (s : State) : (s.countGap d).peers = s.peers ∧ (s.countGap d).scratch = s.scratch := by
  unfold State.countGap
  split <;> exact ⟨rfl, rfl⟩

/-- The increment that brings the single-lane run to 64 reports the path (R167). -/
theorem State.reportPath_brings {e : FilterEntry} (h : e.onA ≠ e.onB) (hr : e.singleRun = 63) (s : State) :
    .pathDegraded ∈ (s.reportPath j e).scratch.brought := by
  have hn : e.nextSingleRun = 64 := by
    rw [FilterEntry.nextSingleRun, if_pos (by simpa [FilterEntry.onOneLane] using h), hr]
    rfl
  rw [State.reportPath, if_pos ⟨by omega, hn⟩, (State.post_aside _ _ _ _).scratch]
  exact List.mem_cons_self

/-- A newer copy, made ready for its hand-over (R162, R167). -/
def State.newerOpened (j : Station) (c : Copy) (s : State) : State :=
  ((((s.reportPath j (s.filter.get j)).countGap (s.ahead j c)).setFilter j
    (acceptedEntry c (s.filter.get j).nextSingleRun)).bump .accepted)

theorem State.judge_newerOpened (h : (s.filter.get j).valid = true) (h0 : 1 ≤ s.ahead j c) (hd : s.ahead j c < 32768) :
    s.judge j c = (s.newerOpened j c).handOver j c false := State.judge_newer h (by omega) hd

theorem State.newerOpened_opening (h : (s.filter.get j).valid = true) (hd : s.ahead j c < 32768) :
    Opening j c s (s.newerOpened j c) := by
  have hq : ((s.reportPath j (s.filter.get j)).countGap (s.ahead j c)).quiet = s.quiet :=
    (State.countGap_quiet _ _).trans (State.reportPath_quiet _ _ _)
  obtain ⟨hp, hx⟩ := State.countGap_frame (s.ahead j c) (s.reportPath j (s.filter.get j))
  have hrun : (s.filter.get j).nextSingleRun = s.nextRun j c := by
    unfold FilterEntry.nextSingleRun State.nextRun
    exact if_congr (by simp [FilterEntry.onOneLane, h, hd]) rfl rfl
  refine ⟨?_, (State.waiting_of_quiet hq :), hp.trans (s.reportPath_peers j _),
    Eq.trans (b := ((s.reportPath j (s.filter.get j)).countGap (s.ahead j c)).steady) rfl (State.steady_of_quiet hq), fun _ e => ?_,
    fun _ _ ho hr => ?_⟩
  · rw [← hrun]
    exact congrArg (fun x => put x j (acceptedEntry c (s.filter.get j).nextSingleRun)) (State.filter_of_quiet hq)
  · omega
  · show _ ∈ ((s.reportPath j (s.filter.get j)).countGap (s.ahead j c)).scratch.brought
    rw [hx]
    exact s.reportPath_brings ho hr

/-- Every acceptance is a hand-over behind its opening, with a restart where the entry resynchronises (R166). -/
theorem State.judge_accepted (h : s.accepts j c) : ∃ v b, s.judge j c = v.handOver j c b ∧ Opening j c s v ∧
    ((s.filter.get j).valid = true → 32768 ≤ s.ahead j c → b = true) := by
  cases hv : (s.filter.get j).valid with
  | false =>
    have hrun : s.nextRun j c = 0 := if_neg (by simp [hv])
    exact ⟨_, false, State.judge_first hv, ⟨by rw [hrun]; rfl, rfl, rfl, rfl, fun e => by simp [hv] at e, fun e => by simp [hv] at e⟩,
      nofun⟩
  | true =>
    by_cases hd : s.ahead j c < 32768
    · have h1 : 1 ≤ s.ahead j c := by
        rcases h with h | h | h
        · rw [hv] at h; cases h
        · exact h.1
        · omega
      exact ⟨_, false, State.judge_newerOpened hv h1 hd, State.newerOpened_opening hv hd, fun _ e => by omega⟩
    · have h15 : 15 ≤ (s.filter.get j).staleRun := by
        rcases h with h | h | h
        · rw [hv] at h; cases h
        · omega
        · exact h.2
      have hrun : s.nextRun j c = 0 := if_neg (by omega)
      have hj : s.judge j c = ((((s.bring .resynchronisation).setFilter j (acceptedEntry c 0)).bump .resync).bump
          .accepted).handOver j c true := by
        rw [State.judge_stale hv (by omega), State.takeStale, if_neg (by omega)]
      exact ⟨_, true, hj, ⟨by rw [hrun]; rfl, rfl, rfl, rfl, fun _ _ => List.mem_cons_self, fun _ e => by omega⟩, fun _ _ => rfl⟩

/-- A row that names an outcome of the taking is the taking itself (log 2). -/
theorem State.copy_row {x : Happening} (hc : s.cond = .running) (hw : s.waiting[n]? = some c)
    (hj : c.frame.source.toNat = stationNumber j) (hx : x ∈ ((s.unqueued n).judge j c).scratch.brought) :
    Host.Outcome.next (φ := Fault) (ρ := Refusal) (s.whileRunning (State.bringing x (State.takeWaiting n))) =
      .next ((s.unqueued n).judge j c).settle := by
  have ht : s.settle.takeWaiting n = (s.unqueued n).judge j c := State.takeWaiting_judge (s := s.settle) hw hj
  rw [State.whileRunning_eq hc, State.bringing, ht, if_pos hx]

/-- The accepted copies (R161, R162, R166, R167, R140). -/
theorem State.acceptance (hc : s.cond = .running) (hw : s.waiting[n]? = some c) (hj : c.frame.source.toNat = stationNumber j)
    (h : s.accepts j c) :
    ∃ t, exec (.deliveryCopyTaken n) s = .next t ∧ t.filter = put s.filter j (acceptedEntry c (s.nextRun j c)) ∧
      t.waiting.length = s.waiting.length - 1 ∧ (t.peer j).cycles = 0 ∧ (t.peer j).last = c.frame.record ∧
      t.steady = s.steady ∧
      ((s.filter.get j).valid = true → 32768 ≤ s.ahead j c → exec (.resynchronisation n) s = .next t ∧
        (t.peer j).restarts = min 65535 ((s.peer j).restarts + 1)) ∧
      ((s.filter.get j).valid = true → s.ahead j c < 32768 → (s.filter.get j).onA ≠ (s.filter.get j).onB →
        (s.filter.get j).singleRun = 63 → exec (.pathDegraded n) s = .next t) := by
  obtain ⟨v, b, hv, ho, hb⟩ := State.judge_accepted (s := s.unqueued n) h
  obtain ⟨hf, hl⟩ := v.handOver_filter j c b
  have hheard := v.handOver_heard j c b
  obtain ⟨h1, h2, h3⟩ := State.takeFrame_heard j c.frame v b
  simp only [State.heard, Prod.mk.injEq] at hheard
  obtain ⟨g1, g2, g3⟩ := hheard
  have hmoves : Moves Order.normalised v (v.handOver j c b) := v.handOver_moves j c b
  have hlen : (s.waiting.eraseIdx n).length = s.waiting.length - 1 := by
    obtain ⟨hn, -⟩ := List.getElem?_eq_some_iff.mp hw
    exact List.length_eraseIdx_of_lt hn
  refine ⟨_, State.copy_exec hc hw hj, ?_, ?_, ?_, ?_, ?_, fun e1 e2 => ⟨?_, ?_⟩, fun e1 e2 e3 e4 => ?_⟩
  · rw [hv]; exact hf.trans ho.filter
  · rw [hv]; exact hl.trans ((congrArg List.length ho.waiting).trans hlen)
  · rw [hv]; exact g2.trans h2
  · rw [hv]; exact g1.trans h1
  · rw [hv]; exact (v.handOver_steady j c b).trans ho.steady
  · exact State.copy_row hc hw hj (by rw [hv]; exact hmoves.keeps_brought (ho.resynchronised e1 e2))
  · rw [hv]
    refine (g3.trans (h3 (hb e1 e2))).trans ?_
    have hp : v.peer j = s.peer j := congrArg (fun x : Vector Peer 16 => x.get j) ho.peers
    rw [hp]
  · exact State.copy_row hc hw hj (by rw [hv]; exact hmoves.keeps_brought (ho.degraded e1 e2 e3 e4))

end Sys2Proof.Machine

namespace Sys2Proof.Machine

variable {s t u v : State} {j : Station} {c : Copy} {f : Frame} {q : StopRequest}

/-! ### A node in play under the blocks behind the skew checks -/

/-- The counters of the skew checks (R153, R154). -/
def State.skews (s : State) : Nat × Nat := (s.counter .indexSkew, s.counter .tagSkew)

theorem State.post_skews (k : EventKind) (a b : Word) (s : State) : (s.post k a b).skews = s.skews :=
  Prod.ext (s.post_counter k a b (by decide)) (s.post_counter k a b (by decide))

theorem State.count_skews {k : Counter} (m : Nat) (s : State) (h1 : k.place ≠ Counter.indexSkew.place := by decide)
    (h2 : k.place ≠ Counter.tagSkew.place := by decide) : (s.count k m).skews = s.skews :=
  Prod.ext (s.count_counter_other k .indexSkew m h1.symm) (s.count_counter_other k .tagSkew m h2.symm)

/-- What the requests and the entries of station j leave of a node in play: no step of the ramps, the trip line, the run state or
STOPPING with the stop field it holds, the skew counters, the items, and a place of the station in the roster. -/
structure Bears (j : Station) (t u : State) : Prop where
  stepped : u.scratch.stepped = none
  trip : u.run.trip = t.run.trip
  state : u.run.state = t.run.state ∨ u.run.state = .stopping
  held : t.run.state = .stopping → u.run.stopField = t.run.stopField
  skews : u.skews = t.skews
  items : u.items = t.items
  expected : (u.peer j).expected = (t.peer j).expected
  member : (t.peer j).state.member = true → (u.peer j).state.member = true

theorem Bears.trans (h : Bears j t u) (g : Bears j u v) : Bears j t v where
  stepped := g.stepped
  trip := g.trip.trans h.trip
  state := by
    rcases g.state with e | e
    · rw [e]; exact h.state
    · exact .inr e
  held e := (g.held (h.state.elim (fun k => k.trans e) id)).trans (h.held e)
  skews := g.skews.trans h.skews
  items := g.items.trans h.items
  expected := g.expected.trans h.expected
  member e := g.member (h.member e)

theorem Bears.play (h : Bears j t u) (hp : t.inPlay) : u.inPlay := by
  rcases h.state with e | e
  · unfold State.inPlay
    rw [e]
    exact hp
  · exact .inr e

/-- Run controller, ramps' step, items and skew counters: all that an event or an entry leaves. -/
def State.backdrop (s : State) : Run × Sched × Option (Nat × Nat) × Items × (Nat × Nat) :=
  (s.run, s.sched, s.scratch.stepped, s.items, s.skews)

theorem State.backdrop_eq_iff : t.backdrop = s.backdrop ↔ t.run = s.run ∧ t.sched = s.sched ∧
    t.scratch.stepped = s.scratch.stepped ∧ t.items = s.items ∧ t.skews = s.skews := by simp [State.backdrop]

theorem State.post_backdrop (k : EventKind) (a b : Word) (s : State) : (s.post k a b).backdrop = s.backdrop :=
  State.backdrop_eq_iff.mpr ⟨s.post_run k a b, by simp, by simp,
    State.items_of_steady (State.steady_of_quiet (s.post_quiet k a b)), s.post_skews k a b⟩

theorem State.count_backdrop {k : Counter} (m : Nat) (s : State) (h1 : k.place ≠ Counter.indexSkew.place := by decide)
    (h2 : k.place ≠ Counter.tagSkew.place := by decide) : (s.count k m).backdrop = s.backdrop :=
  State.backdrop_eq_iff.mpr ⟨rfl, rfl, rfl, rfl, s.count_skews m h1 h2⟩

theorem State.setPeerState_backdrop (k : Station) (p : PeerState) (m : Nat) (s : State) :
    (s.setPeerState k p m).backdrop = s.backdrop := by
  simp only [State.setPeerState]
  split
  · rfl
  · exact (State.post_backdrop _ _ _ _).trans rfl

section Play
variable (hp : t.inPlay) (hx : t.scratch.stepped = none)

section
include hp

theorem State.not_ready_of_inPlay : t.run.state ≠ .ready ∧ t.run.state ≠ .standby ∧ t.run.state ≠ .assembly ∧
    t.run.state ≠ .countdown := by
  rcases hp with (h | h | h) | h <;> rw [h] <;> decide

theorem State.readyTest_of_inPlay : t.readyTest = t := by
  obtain ⟨hr, hs, -, -⟩ := State.not_ready_of_inPlay hp
  exact State.readyTest_of_unready hr fun e => absurd e hs

theorem State.reportIncomplete_of_inPlay : t.reportIncomplete = t := by
  unfold State.reportIncomplete
  rcases hp with (h | h | h) | h <;> rw [h]

theorem State.considerAdoption_of_inPlay (k : Station) (f : Frame) (x : Stamp) : t.considerAdoption k f x = (t, x) := by
  rw [State.considerAdoption, if_neg]
  exact fun e => (State.not_ready_of_inPlay hp).2.2.1 e.1

theorem State.considerStart_of_inPlay (f : Frame) (o : Order) : t.considerStart f o = t := by
  rw [State.considerStart, if_neg]
  exact fun e => (State.not_ready_of_inPlay hp).1 e.2

end

include hx

theorem Bears.of_backdrop (h : u.backdrop = t.backdrop) (he : (u.peer j).expected = (t.peer j).expected)
    (hm : (t.peer j).state.member = true → (u.peer j).state.member = true) : Bears j t u := by
  obtain ⟨h1, -, h2, h3, h4⟩ := State.backdrop_eq_iff.mp h
  exact ⟨h2.trans hx, by rw [h1], .inl (by rw [h1]), fun _ => by rw [h1], h4, h3, he, hm⟩

theorem Bears.of_peers (h : u.backdrop = t.backdrop) (hu : u.peers = t.peers) : Bears j t u := by
  have hj : u.peer j = t.peer j := congrArg (fun x : Vector Peer 16 => x.get j) hu
  exact .of_backdrop hx h (by rw [hj]) (by rw [hj]; exact id)

theorem Bears.refl : Bears j t t := .of_peers hx rfl rfl

/-- An entry of station j put into a state of the roster's members (R137). -/
theorem State.setPeerState_bears {p : PeerState} (h : p.member = true) (m : Nat) : Bears j t (t.setPeerState j p m) := by
  have hj := t.setPeerState_peer j p m
  exact .of_backdrop hx (t.setPeerState_backdrop j p m) (by rw [hj]) fun _ => by rw [hj]; exact h

theorem State.onPeer_bears {g : Peer → Peer}
    (h : ∀ p, (g p).expected = p.expected ∧ (g p).state = p.state := by exact fun _ => ⟨rfl, rfl⟩) : Bears j t (t.onPeer j g) := by
  have hj := t.onPeer_peer j g
  obtain ⟨he, hs⟩ := h (t.peer j)
  exact .of_backdrop hx rfl (by rw [hj, he]) fun e => by rw [hj, hs]; exact e

include hp

/-- A request of class S (R82, R83). -/
theorem State.request_bears (hq : q.cause.isT = false) : Bears j t (t.request q) ∧ (t.request q).run.state = .stopping := by
  have hitems : (t.request q).items = t.items := State.items_of_steady (State.steady_of_quiet (t.request_quiet q))
  have hj : (t.request q).peer j = t.peer j := congrArg (fun x : Vector Peer 16 => x.get j) (t.request_peers q)
  rcases hp with h | h
  · obtain ⟨h1, h2, -, -, -, h3, -⟩ := State.stopped_of_rest hq h hx
    refine ⟨⟨by rw [h3]; exact hx, ?_, .inr h1, fun e => ?_, ?_, hitems, by rw [hj], fun e => by rw [hj]; exact e⟩, h1⟩
    · rw [State.request_descends hq h hx]
      exact (State.stopBegun_record q t).1
    · rw [e] at h
      rcases h with h | h | h <;> cases h
    · rw [State.request_descends hq h hx]
      have htaken : (t.countFurther.taken q).skews = t.skews :=
        (State.post_skews _ _ _ _).trans (State.count_skews (k := .stopsTaken) 1 t.countFurther)
      exact (State.post_skews .runState _ _ (((t.countFurther.taken q).latch q).setStopField q)).trans htaken
  · obtain ⟨ha, h1, h2, h3, -⟩ := State.counted hq (.inl h)
    refine ⟨⟨by rw [ha.scratch]; exact hx, h3, .inl h1, fun _ => h2, ?_, hitems, by rw [hj], fun e => by rw [hj]; exact e⟩, h1.trans h⟩
    rw [State.request_counted hq (.inl h)]
    exact State.count_skews (k := .stopsCounted) 1 t.countFurther

theorem State.rosterLoss_bears {e : Cause} (hc : e.isT = false) (b : Bool) : Bears j t (t.rosterLoss j e b) := by
  have hi : (if b && !t.rosterComplete then t.reportIncomplete else t) = t := by
    rw [State.reportIncomplete_of_inPlay hp, ite_self]
  have hq : ∀ m, Bears j t (t.requestLocal e m) := fun m => (State.request_bears hp hx hc).1
  simp only [State.rosterLoss, hi]
  split
  · split
    · exact hq _
    · exact hq _
    · exact hq _
    · exact hq _
    · exact .refl hx
  · exact .refl hx

theorem State.takeStepLoss_bears : Bears j t (t.takeStepLoss j) := by
  have hset : Bears j t (t.setPeerState j .listed 4) := State.setPeerState_bears hx rfl 4
  unfold State.takeStepLoss
  split
  · simp only [State.movePeer]
    split
    · exact hset.trans (State.rosterLoss_bears (hset.play hp) hset.stepped rfl _)
    · exact hset
  · exact .refl hx

theorem State.updateStepRun_bears (o : Int) : Bears j t (t.updateStepRun j o) := by
  unfold State.updateStepRun
  split
  · split
    · have hzero : Bears j t (t.onPeer j fun p => { p with stepRun := 0 }) := State.onPeer_bears hx
      have hcount : Bears j t ((t.onPeer j fun p => { p with stepRun := 0 }).bump .stepLoss) :=
        hzero.trans (.of_peers hzero.stepped (State.count_backdrop (k := .stepLoss) 1 _) rfl)
      have hbring : Bears j t (((t.onPeer j fun p => { p with stepRun := 0 }).bump .stepLoss).bring .stepLoss) :=
        hcount.trans (.of_peers hcount.stepped rfl rfl)
      exact hbring.trans (State.takeStepLoss_bears (hbring.play hp) hbring.stepped)
    · exact State.onPeer_bears hx
  · exact State.onPeer_bears hx

theorem State.takeOffset_bears (o : Int) : Bears j t (t.takeOffset j o) := by
  unfold State.takeOffset
  split
  · have hset : Bears j t (t.setPeerState j .active 2) := State.setPeerState_bears hx rfl 2
    rw [State.readyTest_of_inPlay (hset.play hp)]
    exact hset
  · exact .refl hx

omit hp in
theorem State.recordOffset_bears (r : Int) : Bears j t (t.recordOffset j r) := by
  have hset : Bears j t (t.onPeer j fun p => { p with offset := limitOffset r }) := State.onPeer_bears hx
  simp only [State.recordOffset]
  split
  · exact hset.trans (.of_peers hset.stepped rfl rfl)
  · exact hset.trans (.of_peers hset.stepped (State.count_backdrop (k := .offsetClamp) 1 _) rfl)

theorem State.takeTiming_bears (f : Frame) (a : Nat) (x : Stamp) : Bears j t (t.takeTiming j f a x) := by
  simp only [State.takeTiming, State.considerAdoption_of_inPlay hp]
  split
  · have hrecord := State.recordOffset_bears (j := j) hx (rawOffset f a x)
    have hrun := hrecord.trans (State.updateStepRun_bears (hrecord.play hp) hrecord.stepped (limitOffset (rawOffset f a x)))
    exact hrun.trans (State.takeOffset_bears (hrun.play hp) hrun.stepped _)
  · exact .refl hx

theorem State.displace_bears (e w : Order) : Bears j t (t.displace e w) := by
  have hend : ∀ v : State, Bears j t v →
      Bears j t (if v.run.state = .countdown ∧ v.run.countdown = some e.id then v.returnToReady else v) := fun v hv => by
    rw [if_neg fun g => (State.not_ready_of_inPlay (hv.play hp)).2.2.2 g.1]
    exact hv
  have herase : Bears j t (State.bump .ordersDisplaced { t with orders := { t.orders with pending := t.orders.pending.erase e } }) :=
    .of_peers hx (State.count_backdrop (k := .ordersDisplaced) 1 { t with orders := _ }) rfl
  unfold State.displace
  refine hend _ ?_
  split
  · exact herase.trans (.of_peers herase.stepped ((State.post_backdrop _ _ _ _).trans rfl) ((State.post_peers _ _ _ _).trans rfl))
  · exact herase

theorem State.placeAdopted_bears (f : Frame) (k : Station) (o : Order) : Bears j t (t.placeAdopted f k o) := by
  unfold State.placeAdopted
  split
  · exact (State.request_bears hp hx rfl).1
  · split
    · exact (State.request_bears hp hx rfl).1
    · have hin : Bears j t (((State.bump .ordersAdopted { t with orders := { t.orders with
          pending := insertOrder o t.orders.pending } }).post .orderAdopted o.identityWord o.effective)) :=
        .of_peers hx ((State.post_backdrop _ _ _ _).trans (State.count_backdrop (k := .ordersAdopted) 1 { t with orders := _ }))
          ((State.post_peers _ _ _ _).trans rfl)
      simp only [State.insertAdopted]
      rw [State.considerStart_of_inPlay (hin.play hp)]
      exact hin

theorem State.adopt_bears (f : Frame) (k : Station) (o : Order) : Bears j t (t.adopt f k o) := by
  unfold State.adopt
  split
  · exact .refl hx
  split
  · exact .refl hx
  split
  · exact .refl hx
  split
  · rename_i e _
    have hd := State.displace_bears (j := j) hp hx e o
    exact hd.trans (State.placeAdopted_bears (hd.play hp) hd.stepped f k o)
  · split
    · exact (State.request_bears hp hx rfl).1
    · exact State.placeAdopted_bears hp hx f k o

theorem State.takeOrderPart_bears (f : Frame) (k : Station) : Bears j t (t.takeOrderPart f k) := by
  simp only [State.takeOrderPart]
  split
  · exact .of_peers hx rfl rfl
  · rename_i o _
    have hoffer : Bears j t ((t.offerEpoch f.highest).offerEpoch o.epoch) := .of_peers hx rfl rfl
    split
    · exact hoffer.trans (State.adopt_bears (hoffer.play hp) hoffer.stepped f k o)
    · exact hoffer

theorem State.takeStopPart_bears (f : Frame) : Bears j t (t.takeStopPart j f) := by
  simp only [State.takeStopPart]
  split
  · exact (State.request_bears hp hx rfl).1
  · exact .refl hx

/-- Timebase, order unit and stop field, behind the peer table (R169). -/
theorem State.blocks_bear (f : Frame) (a : Nat) (x : Stamp) : Bears j t ((t.takeTiming j f a x).takeOrderPart f j) := by
  have h := State.takeTiming_bears (j := j) hp hx f a x
  exact h.trans (State.takeOrderPart_bears (h.play hp) h.stepped f j)

end Play

end Sys2Proof.Machine

namespace Sys2Proof.Machine

variable {s t u v : State} {j : Station} {c : Copy} {f : Frame} {n : Nat}

/-! ### A newer frame of a group peer, up to the skew checks (R138) -/

theorem State.newerOpened_backdrop (j : Station) (c : Copy) (s : State) : (s.newerOpened j c).backdrop = s.backdrop := by
  have hpath : (s.reportPath j (s.filter.get j)).backdrop = s.backdrop := by
    unfold State.reportPath
    split
    · exact (State.post_backdrop _ _ _ _).trans rfl
    · rfl
  have hgap : ∀ v : State, (v.countGap (s.ahead j c)).backdrop = v.backdrop := fun v => by
    unfold State.countGap
    split
    · exact (State.count_backdrop (k := .missed) _ _).trans (State.count_backdrop (k := .gap) 1 v)
    · rfl
  refine (State.count_backdrop (k := .accepted) 1 _).trans ?_
  exact (hgap _).trans hpath

/-- The frame of station j entered into its entry, the skew checks still to come (R138, steps 2 to 4). -/
def State.entered (j : Station) (f : Frame) (s : State) : State :=
  ((s.testProfile j f.profile).recordFrame j f).writeWindow j f

/-- The profile test of a member whose profile matches marks the match, no more (R139, R145). -/
theorem State.testProfile_member {b : Byte} (hm : (s.peer j).state.member = true) (hb : matchesProfile s.time.rate b = true) :
    s.testProfile j b = s.onPeer j fun p => { p with profileMatch := true } := by
  have hu : (s.peer j).state ≠ .unseen := fun e => by rw [e] at hm; cases hm
  have hc : s.profileChanged j b = false := by
    cases hs : (s.peer j).state <;> simp_all [State.profileChanged, PeerState.member]
  simp only [State.testProfile]
  rw [if_neg hu, hc, hb]
  rfl

theorem State.recordFrame_backdrop (j : Station) (f : Frame) (s : State) : (s.recordFrame j f).backdrop = s.backdrop := by
  simp only [State.recordFrame]
  split
  · exact (State.setPeerState_backdrop _ _ _ _).trans rfl
  · rfl

/-- What the frame record leaves of the entry (R140, R141). -/
theorem State.recordFrame_peer (j : Station) (f : Frame) (s : State) : (s.recordFrame j f).peer j =
    { s.peer j with last := f.record, shares := f.domain &&& s.items.domain != 0, cycles := 0,
                    state := if (s.peer j).state = .silent then .listed else (s.peer j).state } := by
  have h := s.onPeer_peer j fun p => { p with last := f.record, shares := f.domain &&& s.items.domain != 0, cycles := 0 }
  simp only [State.recordFrame]
  rw [h]
  split
  · rw [State.setPeerState_peer, h]
  · exact h

theorem State.writeWindow_backdrop (j : Station) (f : Frame) (s : State) : (s.writeWindow j f).backdrop = s.backdrop := by
  simp only [State.writeWindow]
  split
  · split
    · exact (State.count_backdrop (k := .beyondWindow) 1 _).trans rfl
    · rfl
  · rfl

theorem State.writeWindow_peer (j : Station) (f : Frame) (s : State) :
    ∃ w, (s.writeWindow j f).peer j = { s.peer j with window := w } := by
  have h : ∀ w, (s.onPeer j fun q => { q with window := w }).peer j = { s.peer j with window := w } := fun w =>
    s.onPeer_peer j fun q => { q with window := w }
  simp only [State.writeWindow]
  split
  · split
    · exact ⟨_, h _⟩
    · exact ⟨_, h _⟩
  · exact ⟨(s.peer j).window, rfl⟩

/-- The entry of a group peer once its frame is entered. -/
structure Met (j : Station) (s v : State) : Prop where
  backdrop : v.backdrop = s.backdrop
  expected : (v.peer j).expected = true
  shares : (v.peer j).shares = true
  state : (v.peer j).state = .listed ∨ (v.peer j).state = .active
  stepRun : (v.peer j).stepRun = (s.peer j).stepRun

theorem State.entered_met (he : (s.peer j).expected = true)
    (hm : (s.peer j).state = .listed ∨ (s.peer j).state = .active ∨ (s.peer j).state = .silent)
    (hb : matchesProfile s.time.rate f.profile = true) (hd : f.domain &&& s.items.domain ≠ 0) : Met j s (s.entered j f) := by
  have hmember : (s.peer j).state.member = true := by rcases hm with e | e | e <;> rw [e] <;> rfl
  obtain ⟨v, hv⟩ : ∃ v, v = s.onPeer j fun p => { p with profileMatch := true } := ⟨_, rfl⟩
  have hent : s.entered j f = (v.recordFrame j f).writeWindow j f := by
    rw [State.entered, State.testProfile_member hmember hb, hv]
  have hvb : v.backdrop = s.backdrop := by rw [hv]; rfl
  have hvp : v.peer j = { s.peer j with profileMatch := true } := by rw [hv]; exact s.onPeer_peer j _
  have hvi : v.items = s.items := (State.backdrop_eq_iff.mp hvb).2.2.2.1
  obtain ⟨w, hw⟩ := (v.recordFrame j f).writeWindow_peer j f
  rw [v.recordFrame_peer, hvp, hvi] at hw
  rw [hent]
  refine ⟨(State.writeWindow_backdrop j f _).trans ((v.recordFrame_backdrop j f).trans hvb), ?_, ?_, ?_, ?_⟩
  · rw [hw]; exact he
  · rw [hw]; exact bne_iff_ne.mpr hd
  · rw [hw]
    rcases hm with e | e | e
    · exact .inl (by simp [e])
    · exact .inr (by simp [e])
    · exact .inl (by simp [e])
  · rw [hw]

/-! ### The skew checks (R152 to R154) -/

theorem Met.skewChecked (h : Met j s v) : v.skewChecked j f =
    ((f.runState == 5 || f.runState == 6) && (s.run.state == .run || s.run.state == .pausing)) := by
  obtain ⟨hr, -⟩ := State.backdrop_eq_iff.mp h.backdrop
  unfold State.skewChecked
  rw [hr]
  rcases h.state with e | e <;> simp [h.expected, h.shares, e]

theorem State.skewCheck_of_far (h : v.skewChecked j f = true)
    (hf : 1 < ((f.replay.toNat : Int) - v.sched.replay.toNat).natAbs) :
    v.skewCheck j f = (v.bump .indexSkew).requestLocal .indexSkew (stationNumber j) := by
  rw [State.skewCheck, if_pos h, if_pos hf]

theorem State.skewCheck_of_record {r : PosRecord} (h : v.skewChecked j f = true)
    (hf : ¬ 1 < ((f.replay.toNat : Int) - v.sched.replay.toNat).natAbs) (hr : v.comparedRecord f.replay = some r) :
    v.skewCheck j f = if r = { tag := f.tag, rep := f.rep } then v
      else (v.bump .tagSkew).requestLocal .tagSkew (stationNumber j) := by
  rw [State.skewCheck, if_pos h, if_neg hf, hr]

theorem State.skewCheck_of_ahead (h : v.skewChecked j f = true)
    (hf : ¬ 1 < ((f.replay.toNat : Int) - v.sched.replay.toNat).natAbs) (hr : v.comparedRecord f.replay = none) :
    v.skewCheck j f = v := by
  rw [State.skewCheck, if_pos h, if_neg hf, hr]

/-- The record compared with at the own index and at the one before it (R154). -/
theorem State.comparedRecord_within {k i : Int} (hk : k = f.replay.toNat) (hi : i = v.sched.replay.toNat)
    (h : k = i ∨ k = i - 1) : v.comparedRecord f.replay =
      some ((if k = i then v.sched.current else v.sched.previous).getD { tag := 0, rep := 0 }) := by
  have heq : f.replay = v.sched.replay ↔ k = i := by
    rw [← BitVec.toNat_inj]
    omega
  simp only [State.comparedRecord]
  by_cases he : k = i
  · rw [if_pos (heq.mpr he), if_pos he]
  · rw [if_neg (fun e => he (heq.mp e)), if_neg he, if_pos (by omega)]

/-- None at the index ahead (R154). -/
theorem State.comparedRecord_ahead {k i : Int} (hk : k = f.replay.toNat) (hi : i = v.sched.replay.toNat) (h : k = i + 1) :
    v.comparedRecord f.replay = none := by
  have hne : f.replay ≠ v.sched.replay := fun e => by rw [e] at hk; omega
  simp only [State.comparedRecord]
  rw [if_neg hne, if_neg (by omega)]

/-- The skew checks do nothing, or count and send one request. -/
theorem State.skewCheck_cases (j : Station) (f : Frame) (v : State) : v.skewCheck j f = v ∨
    ∃ k e, v.skewCheck j f = (v.bump k).requestLocal e (stationNumber j) ∧ e.isT = false := by
  unfold State.skewCheck
  split
  · split
    · exact .inr ⟨_, _, rfl, rfl⟩
    · split
      · exact .inl rfl
      · split
        · exact .inl rfl
        · exact .inr ⟨_, _, rfl, rfl⟩
  · exact .inl rfl

/-- The blocks behind the peer table (R169). -/
def State.followed (j : Station) (c : Copy) (v : State) : State :=
  ((v.takeTiming j c.frame c.age c.stamp).takeOrderPart c.frame j).takeStopPart j c.frame

theorem State.followed_bears (hp : v.inPlay) (hx : v.scratch.stepped = none) (c : Copy) : Bears j v (v.followed j c) := by
  have h := State.blocks_bear (j := j) hp hx c.frame c.age c.stamp
  exact h.trans (State.takeStopPart_bears (h.play hp) h.stepped c.frame)

/-- A skew counted stops the node with its own reason, and the blocks behind it leave that (R83, R153, R154). -/
theorem State.skewed_stops {k : Counter} {e : Cause} (hs : v.run.state.stoppable) (hx : v.scratch.stepped = none)
    (he : e.isT = false) (c : Copy) {w : State} (hw : w = ((v.bump k).requestLocal e (stationNumber j)).followed j c) :
    w.skews = (v.bump k).skews ∧ w.run.state = .stopping ∧
      w.run.stopField = some { origin := v.items.station, reason := e.code } := by
  obtain ⟨hb, hstop⟩ := State.request_bears (j := j) (t := v.bump k) (q := (v.bump k).localRequest e (stationNumber j)) (.inl hs) hx he
  obtain ⟨-, hfield, -⟩ := State.stopped_of_rest (s := v.bump k) (q := (v.bump k).localRequest e (stationNumber j)) he hs hx
  have hrest := State.followed_bears (j := j) (.inr hstop) hb.stepped c
  rw [hw]
  refine ⟨hrest.skews.trans hb.skews, hrest.state.elim (fun g => g.trans hstop) id, (hrest.held hstop).trans (hfield.trans rfl)⟩

/-! ### The stop field of a frame (R90) -/

/-- The request that a frame's stop field makes (R90). -/
def Frame.stopRequest (f : Frame) (j : Station) : StopRequest :=
  { cause := .peerStop, concerned := stationNumber j, origin := f.stopOrigin.toNat, reason := f.stopReason.toNat }

/-- A frame carries a stop field (R193). -/
def Frame.carriesStop (f : Frame) : Prop :=
  1 ≤ f.stopOrigin.toNat ∧ f.stopOrigin.toNat ≤ 16 ∧ 1 ≤ f.stopReason.toNat ∧ f.stopReason.toNat ≤ 15

theorem State.takeStopPart_taken (he : (v.peer j).expected = true) (hm : (v.peer j).state.member = true)
    (hd : f.domain &&& v.items.domain ≠ 0) (hf : f.carriesStop) : v.takeStopPart j f = v.request (f.stopRequest j) := by
  have hfields : f.stopFields = (f.stopOrigin.toNat, f.stopReason.toNat) := by
    simp only [Frame.stopFields]
    exact if_pos hf
  have ho : f.stopOrigin.toNat ≠ 0 := by have := hf.1; omega
  simp only [State.takeStopPart, hfields]
  rw [if_pos]
  · rfl
  · simp only [he, hm, Bool.true_and, Bool.and_eq_true, bne_iff_ne]
    exact ⟨ho, hd⟩

theorem State.takeTiming_run (hp : v.inPlay) (hr : (v.peer j).stepRun < 7) (f : Frame) (a : Nat) (x : Stamp) :
    (v.takeTiming j f a x).run = v.run := by
  have hrecord : ∀ r, (v.recordOffset j r).run = v.run ∧ ((v.recordOffset j r).peer j).stepRun = (v.peer j).stepRun := fun r => by
    have h := congrArg Peer.stepRun (v.onPeer_peer j fun p => { p with offset := limitOffset r })
    simp only [State.recordOffset]
    split
    · exact ⟨rfl, h⟩
    · exact ⟨rfl, h⟩
  have hstep : ∀ (u : State) (o : Int), (u.peer j).stepRun < 7 → (u.updateStepRun j o).run = u.run := fun u o hu => by
    unfold State.updateStepRun
    split
    · rw [if_neg (by omega)]
      rfl
    · rfl
  have hoffset : ∀ (u : State) (o : Int), u.inPlay → (u.takeOffset j o).run = u.run := fun u o hu => by
    have hset := (State.backdrop_eq_iff.mp (u.setPeerState_backdrop j .active 2)).1
    unfold State.takeOffset
    split
    · rw [State.readyTest_of_inPlay]
      · exact hset
      · unfold State.inPlay
        rw [hset]
        exact hu
    · rfl
  simp only [State.takeTiming, State.considerAdoption_of_inPlay hp]
  split
  · obtain ⟨h1, h2⟩ := hrecord (rawOffset f a x)
    have h3 := (hstep (v.recordOffset j (rawOffset f a x)) (limitOffset (rawOffset f a x)) (by rw [h2]; exact hr)).trans h1
    refine (hoffset _ _ ?_).trans h3
    unfold State.inPlay
    rw [h3]
    exact hp
  · rfl

theorem State.takeOrderPart_run (h : f.orderKind = 0) (v : State) : (v.takeOrderPart f j).run = v.run := by
  have ho : f.order? = none := by simp [Frame.order?, h, OrderKind.ofByte?]
  simp only [State.takeOrderPart, ho]
  rfl

/-- A stop field stops a node in play, with the trip line as it is (R90). -/
theorem State.stopField_stops (hv : Met j s v) (hs : s.run.state.stoppable) (hx : s.scratch.stepped = none)
    (hd : c.frame.domain &&& s.items.domain ≠ 0) (hf : c.frame.carriesStop) {w : State}
    (hw : w = (v.skewCheck j c.frame).followed j c) :
    w.run.state = .stopping ∧ w.run.trip = s.run.trip ∧
    (c.frame.runState ≠ 5 → c.frame.runState ≠ 6 → (s.peer j).stepRun < 7 → c.frame.orderKind = 0 →
      ∃ u : State, u.run = s.run ∧ u.scratch.stepped = none ∧ w = u.request (c.frame.stopRequest j)) := by
  obtain ⟨hr, -, hstep, hi, -⟩ := State.backdrop_eq_iff.mp hv.backdrop
  have hplay : v.inPlay := .inl (by rw [hr]; exact hs)
  have hvx : v.scratch.stepped = none := hstep.trans hx
  have hmember : (v.peer j).state.member = true := by rcases hv.state with e | e <;> rw [e] <;> rfl
  obtain ⟨v', hrun, hpeers, hitems, hskew⟩ : ∃ v' : State, v'.run = v.run ∧ v'.peers = v.peers ∧ v'.items = v.items ∧
      Bears j v' (v.skewCheck j c.frame) := by
    rcases v.skewCheck_cases j c.frame with e | ⟨k, e, hk, he⟩
    · exact ⟨v, rfl, rfl, rfl, by rw [e]; exact .refl hvx⟩
    · exact ⟨v.bump k, rfl, rfl, rfl, by rw [hk]; exact (State.request_bears (t := v.bump k) hplay hvx he).1⟩
  have hplay' : v'.inPlay := by unfold State.inPlay; rw [hrun]; exact hplay
  have hbefore := hskew.trans (State.blocks_bear (hskew.play hplay') hskew.stepped c.frame c.age c.stamp)
  have hj : v'.peer j = v.peer j := congrArg (fun x : Vector Peer 16 => x.get j) hpeers
  have htaken := State.takeStopPart_taken (f := c.frame) (hbefore.expected.trans (by rw [hj]; exact hv.expected))
    (hbefore.member (by rw [hj]; exact hmember)) (by rw [hbefore.items, hitems, hi]; exact hd) hf
  obtain ⟨hb, hstop⟩ := State.request_bears (j := j) (q := c.frame.stopRequest j) (hbefore.play hplay') hbefore.stepped rfl
  have hwq := hw.trans htaken
  refine ⟨by rw [hwq]; exact hstop, by rw [hwq]; exact hb.trip.trans (hbefore.trip.trans (by rw [hrun, hr])),
    fun h5 h6 h7 h0 => ⟨_, ?_, hbefore.stepped, hwq⟩⟩
  have hcheck : v.skewCheck j c.frame = v := by
    rw [State.skewCheck, if_neg]
    rw [hv.skewChecked, beq_false_of_ne h5, beq_false_of_ne h6]
    exact Bool.noConfusion
  rw [hcheck]
  exact (State.takeOrderPart_run h0 _).trans ((State.takeTiming_run hplay (by rw [hv.stepRun]; exact h7) _ _ _).trans hr)

/-! ### The taking of a newer copy of a group peer -/

/-- The taking of a newer copy: its frame entered, the skew checks, and the blocks behind them (R138, R169). -/
theorem State.newer_exec (hc : s.cond = .running) (hw : s.waiting[n]? = some c) (hj : c.frame.source.toNat = stationNumber j)
    (hv : (s.filter.get j).valid = true) (h1 : 1 ≤ s.ahead j c) (h2 : s.ahead j c < 32768) :
    exec (.deliveryCopyTaken n) s = .next
      (((((s.unqueued n).newerOpened j c).entered j c.frame).skewCheck j c.frame).followed j c).settle := by
  rw [State.copy_exec hc hw hj, State.judge_newerOpened (s := s.unqueued n) hv h1 h2]
  rfl

/-- The entry of a group peer whose newer copy is taken. -/
theorem State.newer_met (h2 : s.ahead j c < 32768) (hv : (s.filter.get j).valid = true) (he : (s.peer j).expected = true)
    (hm : (s.peer j).state = .listed ∨ (s.peer j).state = .active ∨ (s.peer j).state = .silent)
    (hb : c.frame.profile.toNat / 16 = 1 ∧ c.frame.profile.toNat % 4 = s.time.rate.val)
    (hd : c.frame.domain &&& s.items.domain ≠ 0) :
    Met j (s.unqueued n) (((s.unqueued n).newerOpened j c).entered j c.frame) := by
  have hback := (s.unqueued n).newerOpened_backdrop j c
  have ho := State.newerOpened_opening (s := s.unqueued n) hv h2
  have hp : ((s.unqueued n).newerOpened j c).peer j = s.peer j := congrArg (fun x : Vector Peer 16 => x.get j) ho.peers
  have hrate : ((s.unqueued n).newerOpened j c).time.rate = s.time.rate := State.rate_of_steady ho.steady
  have hi : ((s.unqueued n).newerOpened j c).items = s.items := State.items_of_steady ho.steady
  have h := State.entered_met (s := (s.unqueued n).newerOpened j c) (f := c.frame) (j := j) (by rw [hp]; exact he)
    (by rw [hp]; exact hm) (by rw [hrate]; simp [matchesProfile, hb]) (by rw [hi]; exact hd)
  exact ⟨h.backdrop.trans hback, h.expected, h.shares, h.state, h.stepRun.trans (by rw [hp]; rfl)⟩

/-- The skew checks of a group peer's frame, in RUN or PAUSING (R152 to R154). -/
theorem State.skew_rows (hv : Met j s v) (hs : s.run.state = .run ∨ s.run.state = .pausing) (hx : s.scratch.stepped = none)
    (hf : c.frame.runState = 5 ∨ c.frame.runState = 6) {k i : Int} (hk : k = c.frame.replay.toNat)
    (hi : i = s.sched.replay.toNat) {r : PosRecord}
    (hr : r = (if k = i then s.sched.current else s.sched.previous).getD { tag := 0, rep := 0 }) {w : State}
    (hw : w = (v.skewCheck j c.frame).followed j c) :
    (1 < k - i ∨ k - i < -1 → w.skews = (min 4294967295 (s.counter .indexSkew + 1), s.counter .tagSkew) ∧
      w.run.state = .stopping ∧ w.run.stopField = some { origin := s.items.station, reason := 6 }) ∧
    ((k = i ∨ k = i - 1) → r ≠ { tag := c.frame.tag, rep := c.frame.rep } →
      w.skews = (s.counter .indexSkew, min 4294967295 (s.counter .tagSkew + 1)) ∧
      w.run.state = .stopping ∧ w.run.stopField = some { origin := s.items.station, reason := 7 }) ∧
    (k = i + 1 ∨ ((k = i ∨ k = i - 1) ∧ r = { tag := c.frame.tag, rep := c.frame.rep }) → w.skews = s.skews) := by
  obtain ⟨hrun, hsched, hstep, hitems, hskews⟩ := State.backdrop_eq_iff.mp hv.backdrop
  have hstop : v.run.state.stoppable := by rw [hrun]; exact hs.imp_right .inl
  have hvx := hstep.trans hx
  have hchecked : v.skewChecked j c.frame = true := by
    rw [hv.skewChecked]
    rcases hf with e | e <;> rcases hs with g | g <;> rw [e, g] <;> rfl
  have hi' : i = v.sched.replay.toNat := by rw [hsched]; exact hi
  obtain ⟨hindex, htag⟩ := Prod.mk.inj hskews
  have hstill : v.skewCheck j c.frame = v → w.skews = s.skews := fun e => by
    rw [hw, e]
    exact (State.followed_bears (.inl hstop) hvx c).skews.trans hskews
  have hwithin : k = i ∨ k = i - 1 → v.comparedRecord c.frame.replay = some r := fun h => by
    rw [State.comparedRecord_within hk hi' h, hr, hsched]
  refine ⟨fun h => ?_, fun h hne => ?_, fun h => ?_⟩
  · rw [State.skewCheck_of_far hchecked (by omega)] at hw
    obtain ⟨h1, h2, h3⟩ := State.skewed_stops hstop hvx rfl c hw
    refine ⟨h1.trans (Prod.ext ?_ ?_), h2, by rw [h3, hitems]; rfl⟩
    · exact (v.bump_counter .indexSkew).trans (by rw [hindex]; rfl)
    · exact (v.count_counter_other .indexSkew .tagSkew 1 (by decide)).trans htag
  · rw [State.skewCheck_of_record hchecked (by omega) (hwithin h), if_neg hne] at hw
    obtain ⟨h1, h2, h3⟩ := State.skewed_stops hstop hvx rfl c hw
    refine ⟨h1.trans (Prod.ext ?_ ?_), h2, by rw [h3, hitems]; rfl⟩
    · exact (v.count_counter_other .tagSkew .indexSkew 1 (by decide)).trans hindex
    · exact (v.bump_counter .tagSkew).trans (by rw [htag]; rfl)
  · rcases h with h | ⟨h, he⟩
    · exact hstill (State.skewCheck_of_ahead hchecked (by omega) (State.comparedRecord_ahead hk hi' h))
    · exact hstill (by rw [State.skewCheck_of_record hchecked (by omega) (hwithin h), if_pos he])

/-- Settles O35: the acceptance behind its opening, the skew checks of the entered frame, and the stop field behind the blocks. -/
theorem filterAcceptsCopies : Obligations.FilterAcceptsCopies := by
  refine ⟨fun s n c j e d hc hw hj he hd ha => ?_, fun s n c j d hc hw hj hv hd h1 h2 he hm hb1 hb2 hdom => ?_⟩
  · subst he hd
    obtain ⟨t, ht, hfilter, hlen, hcycles, hlast, hsteady, hrestart, hpath⟩ := State.acceptance hc hw hj ha
    have hentry : acceptedEntry c (s.nextRun j c) = {
        valid := true, last := c.frame.cycle.setWidth 16, onA := decide (c.lane = .a), onB := decide (c.lane = .b)
        staleRun := 0, singleRun := s.nextRun j c } := by
      unfold acceptedEntry
      cases c.lane <;> rfl
    have hout := State.output_of_steady hsteady
    simp only [Drive.output, Prod.mk.injEq] at hout
    obtain ⟨hprev, hresidual, hcode, -, -, -, -, -, -, hstrobes⟩ := hout
    exact ⟨t, ht, by rw [hfilter, hentry]; rfl, hlen, hcycles, by rw [hlast]; rfl, by rw [hlast]; rfl, by rw [hlast]; rfl,
      by rw [hlast]; rfl, State.store_of_steady hsteady, State.servo_of_steady hsteady, State.items_of_steady hsteady,
      State.acc_of_steady hsteady, State.mark_of_steady hsteady, ⟨hprev, hresidual, hcode, hstrobes⟩, hrestart, hpath⟩
  · subst hd
    have hmet := State.newer_met (n := n) (c := c) h2 hv he hm ⟨hb1, hb2⟩ hdom
    have hexec := State.newer_exec hc hw hj hv h1 h2
    refine ⟨fun k i r hk hi hf hs hr => ⟨_, hexec, ?_⟩, fun o r ho hr ho1 ho2 hr1 hr2 hs => ⟨_, hexec, ?_⟩⟩
    · obtain ⟨hfar, htag, heven⟩ := State.skew_rows hmet hs rfl hf hk hi hr rfl
      refine ⟨fun h => ?_, fun h hne => ?_, fun h => ?_⟩
      · obtain ⟨g1, g2, g3⟩ := hfar h
        obtain ⟨gi, gt⟩ := Prod.mk.inj g1
        exact ⟨gi, gt, g2, g3⟩
      · obtain ⟨g1, g2, g3⟩ := htag h hne
        obtain ⟨gi, gt⟩ := Prod.mk.inj g1
        exact ⟨gt, gi, g2, g3⟩
      · exact Prod.mk.inj (heven h)
    · subst ho hr
      obtain ⟨hstop, htrip, hfree⟩ := State.stopField_stops hmet hs rfl hdom ⟨ho1, ho2, hr1, hr2⟩ rfl
      refine ⟨hstop, htrip, fun h5 h6 h7 h0 => ?_⟩
      obtain ⟨u, hu, hx, hq⟩ := hfree h5 h6 h7 h0
      have hsu : u.run.state.stoppable := by rw [hu]; exact hs
      obtain ⟨-, hfield, -⟩ := State.stopped_of_rest (q := c.frame.stopRequest j) rfl hsu hx
      refine ⟨(congrArg (fun v : State => v.run.stopField) hq).trans hfield, fun hrec => ?_⟩
      refine ⟨_, (congrArg (fun v : State => v.run.record) hq).trans
        (State.request_latches hx (by rw [hu]; exact hrec) (.inr ⟨rfl, hsu⟩)), rfl, rfl, rfl, rfl, rfl, ?_, rfl, rfl⟩
      exact congrArg Run.state hu

end Sys2Proof.Machine

namespace Sys2Proof.Machine

variable {s t u : State}

/-! ### What order unit, trim, clock, event queue and counters read (R98, R121, R132, R204, R207) -/

/-- All that the laws of order unit, trim, event queue and counters read. -/
def State.books (s : State) : Orders × RunState × Int × Items × List Event × Vector Nat 52 :=
  (s.orders, s.run.state, s.time.trim, s.port.items, s.port.events, s.port.counters)

/-- The books with the accumulator and the output mark, which the clock law reads. -/
def State.accounts (s : State) := (s.books, s.time.acc, s.time.mark)

/-- From s to t the laws of order unit, trim, event queue, counters and configuration hold on, and with them the clock law. -/
structure Paced (s t : State) : Prop where
  orders : s.orderLaw → t.orderLaw
  trim : s.trimLaw → t.trimLaw
  port : s.portLaw → t.portLaw
  items : s.items.inRanges → t.items.inRanges
  clock : s.items.inRanges → s.trimLaw → s.clockLaw → t.clockLaw

theorem Paced.refl (s : State) : Paced s s := ⟨id, id, id, id, fun _ _ => id⟩

theorem Paced.trans (h : Paced s t) (g : Paced t u) : Paced s u :=
  ⟨fun x => g.orders (h.orders x), fun x => g.trim (h.trim x), fun x => g.port (h.port x), fun x => g.items (h.items x),
    fun x y z => g.clock (h.items x) (h.trim y) (h.clock x y z)⟩

/-- The clock moved, the books left. -/
theorem Paced.timed (h : t.books = s.books) (hc : s.items.inRanges → s.trimLaw → s.clockLaw → t.clockLaw) : Paced s t := by
  simp only [State.books, Prod.mk.injEq] at h
  obtain ⟨h1, h2, h3, h4, h5, h6⟩ := h
  refine ⟨fun g => ?_, fun g => ?_, fun g => ?_, fun g => ?_, hc⟩
  · rwa [State.orderLaw, h1]
  · rwa [State.trimLaw, State.items, h2, h3, h4]
  · rwa [State.portLaw, h5, h6]
  · rwa [State.items, h4]

theorem Paced.still (h : t.accounts = s.accounts) : Paced s t := by
  simp only [State.accounts, Prod.mk.injEq] at h
  obtain ⟨h, ha, hm⟩ := h
  exact .timed h fun _ _ g => by rwa [State.clockLaw, State.phase, ha, hm]

theorem Paced.after (h : Paced t u) (e : t.accounts = s.accounts) : Paced s u := (Paced.still e).trans h

theorem Paced.then (h : Paced s t) (e : u.accounts = t.accounts) : Paced s u := h.trans (.still e)

/-! ### The whole of the laws -/

/-- From s to t every law of ring, order unit, trim, clock, event queue and counters holds on. -/
structure Bounded (s t : State) : Prop extends Paced s t where
  ring : s.ringLaw → t.ringLaw

theorem Bounded.refl (s : State) : Bounded s s := ⟨.refl s, id⟩

theorem Bounded.trans (h : Bounded s t) (g : Bounded t u) : Bounded s u :=
  ⟨h.toPaced.trans g.toPaced, fun x => g.ring (h.ring x)⟩

theorem State.ringLaw_of_ring (h : t.ring = s.ring) (g : s.ringLaw) : t.ringLaw := by rwa [State.ringLaw, h]

/-- The ring left. -/
theorem Paced.ringless (h : Paced s t) (hr : t.ring = s.ring) : Bounded s t := ⟨h, State.ringLaw_of_ring hr⟩

/-- All that the laws read. -/
def State.dealings (s : State) := (s.accounts, s.ring)

theorem Bounded.still (h : t.dealings = s.dealings) : Bounded s t :=
  (Paced.still (congrArg Prod.fst h)).ringless (congrArg Prod.snd h)

/-- An act behind a change that none of the laws reads. -/
theorem Bounded.after (h : Bounded t u) (e : t.dealings = s.dealings) : Bounded s u := (Bounded.still e).trans h

/-- A change that none of the laws reads behind an act. -/
theorem Bounded.then (h : Bounded s t) (e : u.dealings = t.dealings) : Bounded s u := h.trans (.still e)

theorem Bounded.foldl {α : Type} (f : State → α → State) (h : ∀ t a, Bounded t (f t a)) (l : List α) (s : State) :
    Bounded s (l.foldl f s) :=
  List.foldlRecOn (motive := fun t : State => Bounded s t) l f (.refl s) fun t ht a _ => ht.trans (h t a)

/-- The pending list or the history changed. -/
theorem Bounded.reordered {o : Orders} (h : s.orderLaw → o.pending.length ≤ 4 ∧ o.history.length ≤ 8) :
    Bounded s { s with orders := o } := ⟨⟨h, id, id, id, fun _ _ => id⟩, id⟩

/-- The run controller changed, online: the trim need not stand at 0 (R122). -/
theorem Bounded.online {r : Run} (h : r.state ≠ .offline) : Bounded s { s with run := r } :=
  ⟨⟨id, fun g => ⟨g.1, fun e => absurd e h⟩, id, id, fun _ _ => id⟩, id⟩

/-! ### Events and counters (R204, R207) -/

theorem saturate32_le (n k : Nat) : saturate32 n k ≤ 4294967295 := min_le_left _ _

/-- A counter never exceeds 32 bits (R207). -/
theorem State.count_paced (c : Counter) (n : Nat) (s : State) : Paced s (s.count c n) := by
  refine ⟨id, id, fun h => ⟨h.1, fun k => ?_⟩, id, fun _ _ => id⟩
  by_cases e : c.place.val = k.val
  · simp [State.count, Vector.get_eq_getElem, e, saturate32_le]
  · simpa [State.count, Vector.get_eq_getElem, Vector.getElem_set_ne, e] using h.2 k

theorem State.bump_paced (c : Counter) (s : State) : Paced s (s.bump c) := s.count_paced c 1

/-- An event enters a queue with room, or is counted (R204). -/
theorem State.post_paced (k : EventKind) (a b : Word) (s : State) : Paced s (s.post k a b) := by
  rcases s.post_cases k a b with ⟨h, e⟩ | ⟨-, e⟩ <;> rw [e]
  · exact ⟨id, id, fun g => ⟨by simpa using h, g.2⟩, id, fun _ _ => id⟩
  · exact s.bump_paced _

theorem State.count_bounded (c : Counter) (n : Nat) (s : State) : Bounded s (s.count c n) := ⟨s.count_paced c n, id⟩

theorem State.bump_bounded (c : Counter) (s : State) : Bounded s (s.bump c) := ⟨s.bump_paced c, id⟩

theorem State.post_bounded (k : EventKind) (a b : Word) (s : State) : Bounded s (s.post k a b) :=
  (s.post_paced k a b).ringless (State.post_ring s k a b)

/-- The counters of the port put anew. -/
theorem Bounded.counted {c : Vector Nat 52} (h : s.portLaw → ∀ k, c.get k ≤ 4294967295) :
    Bounded s { s with port := { s.port with counters := c } } :=
  ⟨⟨id, id, fun g => ⟨g.1, h g⟩, id, fun _ _ => id⟩, id⟩

/-! ### The run controller -/

/-- OFFLINE is left by GO ONLINE and entered by a reset alone, which no change of the run state is (R69, R72). -/
theorem State.changeState_bounded {r : RunState} (h : r ≠ .offline) (s : State) : Bounded s (s.changeState r) := by
  unfold State.changeState
  exact (s.post_bounded _ _ _).trans (.online h)

theorem State.readyTest_bounded (s : State) : Bounded s s.readyTest := by
  rcases s.readyTest_cases with e | ⟨-, e⟩ | ⟨-, r, hr, e⟩ <;> rw [e]
  · exact .refl s
  · exact s.changeState_bounded (by decide)
  · exact s.changeState_bounded (by rcases hr with rfl | rfl <;> decide)

theorem State.enterStandby_bounded (s : State) : Bounded s s.enterStandby :=
  (s.changeState_bounded (by decide)).trans (State.readyTest_bounded _)

theorem State.returnToReady_bounded (s : State) : Bounded s s.returnToReady :=
  (s.changeState_bounded (by decide)).trans (State.readyTest_bounded _)

theorem State.reportIncomplete_bounded (s : State) : Bounded s s.reportIncomplete := by
  unfold State.reportIncomplete
  split
  · exact .still rfl
  · exact s.changeState_bounded (by decide)
  · exact s.changeState_bounded (by decide)
  · exact .refl s

theorem State.fetch_dealings (s : State) : s.fetch.dealings = s.dealings := by
  obtain ⟨b, a, e⟩ := s.fetch_frame
  rw [e]
  rfl

theorem State.rewind_dealings (s : State) : s.rewind.dealings = s.dealings := by
  unfold State.rewind
  split
  · exact State.fetch_dealings _
  · exact State.fetch_dealings _

theorem State.enterStopped_bounded (s : State) : Bounded s s.enterStopped :=
  (s.changeState_bounded (by decide)).then (State.rewind_dealings _)

theorem State.takeReport_bounded (r : RampReport) (s : State) : Bounded s (s.takeReport r) := by
  cases r with
  | nothing => exact .refl s
  | rampAtZero =>
    simp only [State.takeReport]
    split
    · exact (State.changeState_bounded (by decide) _).after rfl
    · exact .still rfl
  | descentAtZero =>
    simp only [State.takeReport]
    split
    · exact (State.enterStopped_bounded _).after rfl
    · exact .still rfl

theorem State.stepRunRamp_bounded (s : State) : Bounded s s.stepRunRamp := (State.takeReport_bounded _ s.runStepped).after rfl

theorem State.firstStep_bounded (s : State) : Bounded s s.firstStep := by
  unfold State.firstStep
  split
  · exact s.stepRunRamp_bounded
  · exact .refl s

theorem State.beginRamp_bounded (z : Bool) (x n : Nat) (s : State) : Bounded s (s.beginRamp z x n) := by
  unfold State.beginRamp
  split
  · exact .refl s
  · exact (State.firstStep_bounded (s.installRamp z x n)).after rfl

theorem State.stepRamps_bounded (s : State) : Bounded s s.stepRamps := by
  unfold State.stepRamps
  split
  · exact .refl s
  · exact (State.stepRunRamp_bounded s.levelStepped).after rfl

/-! ### Stop requests (R82) -/

theorem State.taken_bounded (q : StopRequest) (s : State) : Bounded s (s.taken q) :=
  (s.bump_bounded _).trans (State.post_bounded _ _ _ _)

theorem State.noteRequest_bounded (q : StopRequest) (s : State) : Bounded s (s.noteRequest q) := by
  have h : Bounded s ((s.bump .stopsNoted).post .stopNoted q.detail1 q.detail2) :=
    (s.bump_bounded _).trans (State.post_bounded _ _ _ _)
  simp only [State.noteRequest]
  split
  · exact h
  · split
    · exact s.bump_bounded _
    · exact h.then rfl

theorem State.cancelCountdown_bounded (q : StopRequest) (s : State) : Bounded s (s.cancelCountdown q) :=
  (s.taken_bounded q).trans (State.returnToReady_bounded _)

theorem State.enterStopping_bounded (q : StopRequest) (s : State) : Bounded s (s.enterStopping q) := by
  have h : Bounded s (((s.taken q).latch q).setStopField q) := (s.taken_bounded q).then rfl
  exact (h.trans (State.changeState_bounded (by decide) _)).trans ((State.firstStep_bounded _).after rfl)

theorem State.enterTripped_bounded (q : StopRequest) (s : State) : Bounded s (s.enterTripped q) := by
  have h : ∀ u : State, u.dealings = (s.taken q).dealings →
      Bounded s ((((u.setStopField q).changeState .tripped).freeze).setHold true).rewind := fun u e =>
    ((((s.taken_bounded q).then (u := u.setStopField q) e).trans (State.changeState_bounded (by decide) _)).then
      (u := (((u.setStopField q).changeState .tripped).freeze).setHold true) rfl).then (State.rewind_dealings _)
  unfold State.enterTripped
  dsimp only
  split
  · exact h _ rfl
  · exact h _ rfl

theorem State.request_bounded (q : StopRequest) (s : State) : Bounded s (s.request q) := by
  have hf : s.countFurther.dealings = s.dealings := rfl
  simp only [State.request]
  split
  case h_1 => exact .refl s
  case h_2 | h_11 | h_12 => exact (State.bump_bounded _ _).after hf
  case h_3 => exact (State.enterTripped_bounded q _).after hf
  case h_4 | h_5 | h_6 | h_13 => exact (State.noteRequest_bounded q _).after hf
  case h_7 => exact (State.cancelCountdown_bounded q _).after hf
  case h_8 | h_9 | h_10 => exact (State.enterStopping_bounded q _).after hf

theorem State.requestLocal_bounded (c : Cause) (n : Nat) (s : State) : Bounded s (s.requestLocal c n) := s.request_bounded _

theorem State.isolatedTest_bounded (s : State) : Bounded s s.isolatedTest := by
  unfold State.isolatedTest
  split
  · exact s.requestLocal_bounded _ _
  · exact .refl s

/-! ### Assembly and countdown (R73, R76 to R78) -/

theorem State.assemblyTest_bounded (s : State) : Bounded s s.assemblyTest := by
  simp only [State.assemblyTest]
  split
  · split
    · split
      · exact (State.enterStandby_bounded _).after rfl
      · exact .still rfl
    · exact .still rfl
  · exact .refl s

theorem State.countdownCheck_bounded (s : State) : Bounded s s.countdownCheck := by
  unfold State.countdownCheck
  split
  · split
    · exact ((s.post_bounded _ _ _).trans (State.bump_bounded _ _)).trans (State.returnToReady_bounded _)
    · exact .refl s
  · exact .refl s

theorem State.onPeer_dealings (j : Station) (f : Peer → Peer) (s : State) : (s.onPeer j f).dealings = s.dealings := rfl

theorem State.emptyWindows_dealings (s : State) : s.emptyWindows.dealings = s.dealings := by
  unfold State.emptyWindows
  exact foldl_keeps State.dealings _ (fun t j => t.onPeer_dealings j _) stations s

theorem State.enterCountdown_bounded (i : OrderId) (s : State) : Bounded s (s.enterCountdown i) :=
  (s.changeState_bounded (by decide)).then ((State.emptyWindows_dealings _).trans rfl)

/-! ### The order unit (R98, R111, R112) -/

theorem insertOrder_length (o : Order) (l : List Order) : (insertOrder o l).length = l.length + 1 := by
  induction l with
  | nil => rfl
  | cons x l ih =>
    unfold insertOrder
    split
    · simp [ih]
    · rfl

/-- The history never exceeds 8 identities (R112). -/
theorem addHistory_length (h : List OrderId) (i : OrderId) : (addHistory h i).length ≤ 8 := by
  simp only [addHistory, List.length_drop, List.length_append, List.length_singleton]
  omega

theorem State.mayOriginate_room (h : s.mayOriginate = true) : s.orders.pending.length < 4 := by
  simp only [State.mayOriginate, Bool.and_eq_true, decide_eq_true_eq] at h
  exact h.2

/-- An origination passes its BUSY test with fewer than 4 entries in the list (R101, R102). -/
theorem State.originate_bounded (k : OrderKind) (a b : Nat) (hp : s.orders.pending.length < 4) :
    Bounded s (s.originate k a b) := by
  have h : Bounded s { s with orders := { s.orders with
      pending := insertOrder (s.newOrder k a b) s.orders.pending
      highest := (s.newOrder k a b).epoch, carried := some (s.newOrder k a b).epoch } } :=
    .reordered fun g => ⟨by rw [insertOrder_length]; exact hp, g.2⟩
  have h := h.trans (State.bump_bounded .ordersOriginated _)
  simp only [State.originate]
  split
  · exact h.trans (State.enterCountdown_bounded _ _)
  · exact h

theorem State.displace_bounded (e w : Order) (s : State) : Bounded s (s.displace e w) := by
  have hr : ∀ t : State, Bounded s t →
      Bounded s (if t.run.state = .countdown ∧ t.run.countdown = some e.id then t.returnToReady else t) := by
    intro t ht
    split
    · exact ht.trans t.returnToReady_bounded
    · exact ht
  have h : Bounded s (State.bump .ordersDisplaced { s with orders := { s.orders with pending := s.orders.pending.erase e } }) :=
    (Bounded.reordered (o := { s.orders with pending := s.orders.pending.erase e })
      fun g => ⟨List.length_erase_le.trans g.1, g.2⟩).trans (State.bump_bounded _ _)
  unfold State.displace
  refine hr _ ?_
  dsimp only
  split
  · exact (h.trans (.reordered (o := { s.orders with pending := s.orders.pending.erase e, carried := none }) id)).trans
      (State.post_bounded .orderLost e.identityWord (word w.origin) _)
  · exact h

theorem State.considerStart_bounded (f : Frame) (o : Order) (s : State) : Bounded s (s.considerStart f o) := by
  unfold State.considerStart
  split
  · split
    · exact s.enterCountdown_bounded _
    · exact s.post_bounded _ _ _
  · exact .refl s

/-- A fifth order overflows (R107, step 7). -/
theorem State.placeAdopted_bounded (f : Frame) (j : Station) (o : Order) (s : State) : Bounded s (s.placeAdopted f j o) := by
  unfold State.placeAdopted
  split
  · exact s.requestLocal_bounded _ _
  · split
    · exact s.requestLocal_bounded _ _
    · rename_i hp
      have h : Bounded s { s with orders := { s.orders with pending := insertOrder o s.orders.pending } } :=
        .reordered fun g => ⟨by rw [insertOrder_length]; exact Nat.lt_of_not_le hp, g.2⟩
      exact ((h.trans (State.bump_bounded _ _)).trans (State.post_bounded _ _ _ _)).trans (State.considerStart_bounded f o _)

theorem State.adopt_bounded (f : Frame) (j : Station) (o : Order) (s : State) : Bounded s (s.adopt f j o) := by
  unfold State.adopt
  split
  · exact .refl s
  split
  · exact .refl s
  split
  · exact .refl s
  split
  · exact (s.displace_bounded _ _).trans (State.placeAdopted_bounded f j o _)
  · split
    · exact s.requestLocal_bounded _ _
    · exact s.placeAdopted_bounded f j o

theorem State.offerEpoch_bounded (e : Half) (s : State) : Bounded s (s.offerEpoch e) := .reordered id

theorem State.takeOrderPart_bounded (f : Frame) (j : Station) (s : State) : Bounded s (s.takeOrderPart f j) := by
  have h := s.offerEpoch_bounded f.highest
  simp only [State.takeOrderPart]
  split
  · exact h
  · rename_i o _
    have h := h.trans (State.offerEpoch_bounded o.epoch _)
    split
    · exact h.trans (State.adopt_bounded f j o _)
    · exact h

theorem State.retireOrder_bounded (o : Order) (s : State) : Bounded s (s.retireOrder o) :=
  .reordered fun g => ⟨List.length_erase_le.trans g.1, addHistory_length _ _⟩

theorem State.noteApplied_bounded (o : Order) (s : State) : Bounded s (s.noteApplied o) :=
  (s.bump_bounded _).trans (State.post_bounded _ _ _ _)

theorem State.declareInapplicable_bounded (o : Order) (s : State) : Bounded s (s.declareInapplicable o) :=
  (s.bump_bounded _).trans (State.post_bounded _ _ _ _)

/-- A change of the run state that an order asks for (R114 to R116). -/
theorem State.ordered_bounded {r : RunState} (hr : r ≠ .offline) (o : Order) (s : State) :
    Bounded s ((s.noteApplied o).changeState r) := (s.noteApplied_bounded o).trans (State.changeState_bounded hr _)

theorem State.applyStart_bounded (o : Order) (s : State) : Bounded s (s.applyStart o) :=
  ((s.ordered_bounded (r := .run) (by decide) o).then
    (u := (((s.noteApplied o).changeState .run).setLevel o.b).setRunStart) rfl).trans (State.beginRamp_bounded _ _ _ _)

theorem State.applyResume_bounded (o : Order) (s : State) : Bounded s (s.applyResume o) :=
  ((s.ordered_bounded (r := .run) (by decide) o).then
    (u := ((s.noteApplied o).changeState .run).setRunStart) rfl).trans (State.beginRamp_bounded _ _ _ _)

theorem State.applyLevel_bounded (o : Order) (s : State) : Bounded s (s.applyLevel o) :=
  (s.noteApplied_bounded o).then (u := s.applyLevel o) rfl

theorem State.takeStart_bounded (o : Order) (s : State) : Bounded s (s.takeStart o) := by
  simp only [State.takeStart]
  split
  · split
    · exact s.countdownCheck_bounded.trans (State.applyStart_bounded o _)
    · exact s.countdownCheck_bounded.trans (State.declareInapplicable_bounded o _)
  · exact s.declareInapplicable_bounded o

theorem State.settleOrder_bounded (o : Order) (s : State) : Bounded s (s.settleOrder o) := by
  unfold State.settleOrder
  split
  case h_1 => exact s.takeStart_bounded o
  case h_2 => exact (s.ordered_bounded (by decide) o).trans (State.beginRamp_bounded _ _ _ _)
  case h_3 => exact s.applyResume_bounded o
  case h_4 | h_5 | h_6 => exact s.applyLevel_bounded o
  case h_7 => exact s.declareInapplicable_bounded o

theorem State.takeDueOrders_bounded (s : State) : Bounded s s.takeDueOrders := by
  unfold State.takeDueOrders
  split
  · exact .foldl _ (fun t o => (t.retireOrder_bounded o).trans (State.settleOrder_bounded o _)) _ s
  · exact .refl s

end Sys2Proof.Machine

namespace Sys2Proof.Machine

variable {s t : State}

/-! ### Peer table and timebase (R126 to R132, R137 to R143) -/

theorem State.setPeerState_bounded (j : Station) (p : PeerState) (c : Nat) (s : State) : Bounded s (s.setPeerState j p c) := by
  simp only [State.setPeerState]
  split
  · exact .refl s
  · exact (State.post_bounded _ _ _ _).after rfl

theorem State.rosterLoss_bounded (j : Station) (c : Cause) (b : Bool) (s : State) : Bounded s (s.rosterLoss j c b) := by
  have h : Bounded s (if b && !s.rosterComplete then s.reportIncomplete else s) := by
    split
    · exact s.reportIncomplete_bounded
    · exact .refl s
  simp only [State.rosterLoss]
  generalize (if b && !s.rosterComplete then s.reportIncomplete else s) = u at h
  split
  · split
    case h_1 | h_2 | h_3 | h_4 => exact h.trans (u.requestLocal_bounded _ _)
    case h_5 => exact h
  · exact h

theorem State.movePeer_bounded (j : Station) (p : PeerState) (n : Nat) (c : Cause) (s : State) :
    Bounded s (s.movePeer j p n c) := by
  have h := s.setPeerState_bounded j p n
  simp only [State.movePeer]
  split
  · exact h.trans (State.rosterLoss_bounded _ _ _ _)
  · exact h

theorem State.reportProfile_bounded (j : Station) (b : Byte) (s : State) : Bounded s (s.reportProfile j b) := by
  unfold State.reportProfile
  split
  · exact .refl s
  · exact s.post_bounded _ _ _

theorem State.restartPeer_bounded (j : Station) (b : Byte) (s : State) : Bounded s (s.restartPeer j b) := by
  simp only [State.restartPeer]
  generalize ht : s.onPeer j (fun p => { p with restarts := min 65535 (p.restarts + 1), window := [], holdRun := 0 }) = t
  have h : Bounded s t := by rw [← ht]; exact .still (s.onPeer_dealings j _)
  have h := h.trans ((t.setPeerState_bounded j (t.evaluated j b) 5).trans (State.reportProfile_bounded j b _))
  split
  · exact h.trans (State.rosterLoss_bounded _ _ _ _)
  · exact h

theorem State.testProfile_bounded (j : Station) (b : Byte) (s : State) : Bounded s (s.testProfile j b) := by
  simp only [State.testProfile]
  refine Bounded.then ?_ (State.onPeer_dealings j _ _)
  split
  · exact (s.setPeerState_bounded j _ _).trans (State.reportProfile_bounded j b _)
  · split
    · exact s.restartPeer_bounded j b
    · exact .refl s

theorem State.recordFrame_bounded (j : Station) (f : Frame) (s : State) : Bounded s (s.recordFrame j f) := by
  simp only [State.recordFrame]
  split
  · exact (State.setPeerState_bounded j _ _ _).after (s.onPeer_dealings j _)
  · exact .still (s.onPeer_dealings j _)

theorem State.writeWindow_bounded (j : Station) (f : Frame) (s : State) : Bounded s (s.writeWindow j f) := by
  simp only [State.writeWindow]
  split
  · split
    · exact (State.bump_bounded _ _).after (s.onPeer_dealings j _)
    · exact .still (s.onPeer_dealings j _)
  · exact .refl s

theorem State.skewCheck_bounded (j : Station) (f : Frame) (s : State) : Bounded s (s.skewCheck j f) := by
  unfold State.skewCheck
  split
  · split
    · exact (s.bump_bounded _).trans (State.requestLocal_bounded _ _ _)
    · split
      · exact .refl s
      · split
        · exact .refl s
        · exact (s.bump_bounded _).trans (State.requestLocal_bounded _ _ _)
  · exact .refl s

theorem State.takeFrame_bounded (j : Station) (f : Frame) (b : Bool) (s : State) : Bounded s (s.takeFrame j f b) := by
  have h : Bounded s (if b then s.restartPeer j f.profile else s) := by
    split
    · exact s.restartPeer_bounded _ _
    · exact .refl s
  exact (h.trans (State.testProfile_bounded j _ _)).trans ((State.recordFrame_bounded j f _).trans
    ((State.writeWindow_bounded j f _).trans (State.skewCheck_bounded j f _)))

theorem State.bring_dealings (h : Happening) (s : State) : (s.bring h).dealings = s.dealings := rfl

theorem State.countMiss_bounded (j : Station) (s : State) : Bounded s (s.countMiss j) := by
  simp only [State.countMiss]
  split
  · split
    · refine Bounded.after (t := s.onPeer j fun p => { p with cycles := min 255 (p.cycles + 1) }) ?_ (s.onPeer_dealings j _)
      exact ((State.bump_bounded _ _).then (State.bring_dealings _ _)).trans (State.movePeer_bounded _ _ _ _ _)
    · exact .still (s.onPeer_dealings j _)
  · exact .refl s

/-- A lane whose stamps are moved holds the same frames (R129). -/
theorem LaneRec.move_sound {x : LaneRec} (h : x.sound) (d : Word) : (x.move d).sound := by
  obtain ⟨hq, hf, hm, hc⟩ := h
  refine ⟨by simpa [LaneRec.move] using hq, fun q hmem => ?_, hm, hc⟩
  have hmem : q ∈ (x.queue.map (Queued.move d)).tail := hmem
  rw [← List.map_tail, List.mem_map] at hmem
  obtain ⟨p, hp, rfl⟩ := hmem
  have h := hf p hp
  cases p with
  | own f => exact h
  | forwarded f x => exact h

/-- A cycle count carried forward leaves the phase: no boundary is taken (R129, R130). -/
theorem State.adoptCycle_bounded (j : Station) (d : Word) (s : State) : Bounded s (s.adoptCycle j d) := by
  simp only [State.adoptCycle]
  refine Bounded.trans ⟨.still (t := { s with
    time := { s.time with cycle := s.time.cycle + d }
    waiting := s.waiting.map fun (c : Copy) => { c with stamp := c.stamp.move d }
    ring := { s.ring with a := s.ring.a.move d, b := s.ring.b.move d } }) rfl, ?_⟩
    ((State.bump_bounded _ _).trans (State.post_bounded _ _ _ _))
  rintro ⟨hw, he, ha, hb⟩
  exact ⟨hw, he, LaneRec.move_sound ha d, LaneRec.move_sound hb d⟩

theorem State.considerAdoption_bounded (j : Station) (f : Frame) (x : Stamp) (s : State) :
    Bounded s (s.considerAdoption j f x).1 := by
  unfold State.considerAdoption
  split
  · exact s.adoptCycle_bounded j _
  · exact .refl s

theorem State.recordOffset_bounded (j : Station) (r : Int) (s : State) : Bounded s (s.recordOffset j r) := by
  simp only [State.recordOffset]
  split
  · exact .still rfl
  · exact (State.bump_bounded _ _).after rfl

theorem State.updateStepRun_bounded (j : Station) (o : Int) (s : State) : Bounded s (s.updateStepRun j o) := by
  have h : ∀ t : State, Bounded t (t.takeStepLoss j) := fun t => by
    unfold State.takeStepLoss
    split
    · exact t.movePeer_bounded _ _ _ _
    · exact .refl t
  unfold State.updateStepRun
  split
  · split
    · exact (((State.bump_bounded _ _).then (State.bring_dealings _ _)).trans (h _)).after (s.onPeer_dealings j _)
    · exact .still (s.onPeer_dealings j _)
  · exact .still (s.onPeer_dealings j _)

theorem State.takeOffset_bounded (j : Station) (o : Int) (s : State) : Bounded s (s.takeOffset j o) := by
  unfold State.takeOffset
  split
  · exact (s.setPeerState_bounded j _ _).trans (State.readyTest_bounded _)
  · exact .refl s

theorem State.takeTiming_bounded (j : Station) (f : Frame) (a : Nat) (x : Stamp) (s : State) :
    Bounded s (s.takeTiming j f a x) := by
  simp only [State.takeTiming]
  split
  · exact (s.considerAdoption_bounded j f x).trans ((State.recordOffset_bounded j _ _).trans
      ((State.updateStepRun_bounded j _ _).trans (State.takeOffset_bounded j _ _)))
  · exact .refl s

/-- The trim is computed online, within TrimMax of 0 (R132). -/
theorem State.computeTrim_bounded (s : State) : Bounded s s.computeTrim := by
  simp only [State.computeTrim]
  split
  · rename_i h
    split
    · exact .still rfl
    · exact ⟨⟨id, fun _ => ⟨trimOf_mem _ _, fun e => absurd e (by simpa [State.online] using h)⟩, id, id, fun _ _ => id⟩, id⟩
  · exact .refl s

end Sys2Proof.Machine

namespace Sys2Proof.Machine

variable {s t : State} {d : Side}

/-! ### The ring law side by side and lane by lane (R173) -/

/-- What the ring law says of all but one cable side. -/
def State.ringLawBut (d : Side) (s : State) : Prop := (∀ k, k ≠ d → (s.side k).sound) ∧ ∀ l, (s.lane l).sound

theorem State.ringLaw_iff (d : Side) (s : State) : s.ringLaw ↔ (s.side d).sound ∧ s.ringLawBut d := by
  constructor
  · rintro ⟨hw, he, ha, hb⟩
    have hs : ∀ k, (s.side k).sound := fun k => by cases k <;> assumption
    exact ⟨hs d, fun k _ => hs k, fun l => by cases l <;> assumption⟩
  · rintro ⟨hd, hk, hl⟩
    have hs : ∀ k, (s.side k).sound := fun k => by
      by_cases e : k = d
      · rw [e]; exact hd
      · exact hk k e
    exact ⟨hs .west, hs .east, hl .a, hl .b⟩

/-- A move of one side leaves the law of the others and of the lanes. -/
theorem OnSide.but (h : OnSide d s t) (g : s.ringLawBut d) : t.ringLawBut d :=
  ⟨fun k hk => by rw [h.side k hk]; exact g.1 k hk, fun l => by rw [h.lane]; exact g.2 l⟩

/-- A move of one side keeps the law when it keeps that of the side. -/
theorem OnSide.bounded (h : OnSide d s t) (hp : Paced s t) (hs : (s.side d).sound → (t.side d).sound) : Bounded s t :=
  ⟨hp, fun g => (t.ringLaw_iff d).mpr (((s.ringLaw_iff d).mp g).imp hs h.but)⟩

theorem State.onSide_bounded (d : Side) {f : SideRec → SideRec} (h : (s.side d).sound → (f (s.side d)).sound) :
    Bounded s (s.onSide d f) :=
  (s.onSide_only f).bounded (.still rfl) (by rwa [State.onSide_side])

theorem State.onLane_bounded (l : Lane) {f : LaneRec → LaneRec} (h : (s.lane l).sound → (f (s.lane l)).sound) :
    Bounded s (s.onLane l f) := by
  refine ⟨.still rfl, fun ⟨hw, he, ha, hb⟩ => ?_⟩
  cases l with
  | a => exact ⟨hw, he, h ha, hb⟩
  | b => exact ⟨hw, he, ha, h hb⟩

/-! ### Sides (R175 to R178) -/

theorem Paced.onSide (h : Paced s t) (d : Side) (f : SideRec → SideRec) : Paced s (t.onSide d f) := h.then rfl

theorem State.setSide_paced (d : Side) (x : SideState) (c : Nat) (s : State) : Paced s (s.setSide d x c) :=
  (State.post_paced _ _ _ _).after rfl

theorem State.emptyQueue_paced (l : Lane) (s : State) : Paced s (s.emptyQueue l) := by
  refine Paced.then (t := (s.lane l).queue.foldl (fun t q => q.countLost l t) s) ?_ rfl
  refine List.foldlRecOn (motive := fun t : State => Paced s t) _ _ (.refl s) fun t ht q _ => ht.trans ?_
  cases q with
  | own f => exact t.bump_paced _
  | forwarded f x => exact t.bump_paced _

theorem State.emptyQueue_lane_sound (l : Lane) (h : ∀ m, (s.lane m).sound) (m : Lane) : ((s.emptyQueue l).lane m).sound := by
  obtain ⟨-, hother, hl, -, -⟩ := State.emptyQueue_frame l s
  by_cases e : m = l
  · obtain ⟨-, -, hm, hc⟩ := h l
    rw [e, hl]
    exact ⟨Nat.zero_le _, nofun, hm, hc⟩
  · rw [hother m e]; exact h m

theorem State.emptyQueue_ringLaw (l : Lane) (g : s.ringLaw) : (s.emptyQueue l).ringLaw := by
  obtain ⟨hd, hk, hl⟩ := (s.ringLaw_iff .west).mp g
  obtain ⟨hside, -⟩ := State.emptyQueue_frame l s
  exact ((s.emptyQueue l).ringLaw_iff .west).mpr
    ⟨by rwa [hside], fun k hne => by rw [hside]; exact hk k hne, State.emptyQueue_lane_sound l hl⟩

theorem State.emptyQueue_bounded (l : Lane) (s : State) : Bounded s (s.emptyQueue l) :=
  ⟨s.emptyQueue_paced l, State.emptyQueue_ringLaw l⟩

/-- A side goes DOWN whatever its failure count has come to: the 8th failure stands for no longer than this (R176, R178). -/
theorem Bounded.sideDown (c : Nat) (hp : Paced s t)
    (hr : s.ringLaw → t.ringLawBut d ∧ (t.side d).words ≤ 8 ∧ (t.side d).fails ≤ 8) : Bounded s (t.sideDown d c) := by
  have hd : Paced t ((t.setSide d .down c).onSide d fun x => { x with hold := 500 }) := (t.setSide_paced d .down c).onSide d _
  have hu : s.ringLaw → State.ringLaw ((t.setSide d .down c).onSide d fun x => { x with hold := 500 }) := fun g => by
    obtain ⟨hbut, hw, hf⟩ := hr g
    refine (State.ringLaw_iff d _).mpr ⟨?_, ((t.setSide_only .down c).trans (State.onSide_only _ _)).but hbut⟩
    rw [State.onSide_side, State.setSide_side]
    exact ⟨le_refl _, hw, hf, nofun, nofun⟩
  have h : Bounded s (t.dropped d c) := by
    unfold State.dropped
    split
    · exact Bounded.trans ⟨hp.trans hd, hu⟩ (State.emptyQueue_bounded _ _)
    · exact ⟨hp.trans hd, hu⟩
  rw [State.sideDown_eq]
  exact h.trans (State.isolatedTest_bounded _)

theorem State.tryTraining_bounded (d : Side) (s : State) : Bounded s (s.tryTraining d) := by
  refine s.tryTraining_only.bounded (d := d) ?_ fun ⟨hh, hw, hf, ht, hup⟩ => ?_
  · simp only [State.tryTraining]
    split
    · exact (s.setSide_paced d .training 1).onSide d _
    · exact .refl s
  · rw [State.tryTraining_side]
    split
    · exact ⟨hh, Nat.zero_le _, hf, fun _ => Nat.succ_pos _, nofun⟩
    · exact ⟨hh, hw, hf, ht, hup⟩

theorem State.retrain_bounded (d : Side) (c : Nat) (s : State) : Bounded s (s.retrain d c) := by
  have h : Bounded s ((s.setSide d .training c).onSide d fun x => { x with words := 0 }) := by
    refine ((s.setSide_only .training c).trans (State.onSide_only _ _)).bounded (d := d)
      ((s.setSide_paced d .training c).onSide d _) fun ⟨hh, _, hf, _, _⟩ => ?_
    rw [State.onSide_side, State.setSide_side]
    exact ⟨hh, Nat.zero_le _, hf, fun _ => Nat.succ_pos _, nofun⟩
  exact h.trans (State.emptyQueue_bounded _ _)

/-- The 8th clean word in a row takes a side in TRAINING to UP (R177). -/
theorem State.cleanWord_bounded (h : (s.side d).state = .training) : Bounded s (s.cleanWord d) := by
  simp only [State.cleanWord]
  split
  · refine ((s.onSide_only _).trans ((State.setSide_only .up 2 _).trans (State.onSide_only _ _))).bounded (d := d)
      (((Paced.refl s).onSide d _).trans (State.setSide_paced d .up 2 _) |>.onSide d _) fun ⟨hh, _, _, ht, _⟩ => ?_
    rw [State.onSide_side, State.setSide_side, State.onSide_side]
    exact ⟨hh, ht h, Nat.zero_le _, nofun, fun _ => Nat.succ_pos _⟩
  · rename_i hn
    rw [State.onSide_side] at hn
    refine State.onSide_bounded d fun ⟨hh, _, hf, ht, hup⟩ => ?_
    exact ⟨hh, ht h, hf, fun _ => Nat.lt_of_not_le hn, hup⟩

theorem State.clearWords_bounded (d : Side) (s : State) : Bounded s (s.clearWords d) :=
  State.onSide_bounded d fun ⟨hh, _, hf, _, hup⟩ => ⟨hh, Nat.zero_le _, hf, fun _ => Nat.succ_pos _, hup⟩

theorem State.takeLaneWord_bounded (d : Side) (p f c : Byte) (s : State) : Bounded s (s.takeLaneWord d p f c) := by
  simp only [State.takeLaneWord]
  split
  case h_1 => exact .refl s
  case h_2 h =>
    split
    · exact (s.bump_bounded _).trans (State.clearWords_bounded d _)
    · split
      · exact s.clearWords_bounded d
      · exact State.cleanWord_bounded h
  case h_3 =>
    split
    · exact s.bump_bounded _
    · split
      · exact s.retrain_bounded d 6
      · split
        · exact s.retrain_bounded d 5
        · exact .refl s

/-- The 8th bad frame in a row takes an UP side DOWN (R178, R180). -/
theorem State.badFrame_bounded (h : (s.side d).state = .up) : Bounded s (s.badFrame d) := by
  have hside : ((s.bump (.badFrame d)).onSide d fun x => { x with fails := x.fails + 1 }).side d =
      { s.side d with fails := (s.side d).fails + 1 } := State.onSide_side _ _ _
  have hb := (s.bump_bounded (.badFrame d))
  simp only [State.badFrame]
  split
  · refine .sideDown 4 ((s.bump_paced _).onSide d _) fun g => ?_
    obtain ⟨⟨_, hw, _, _, hup⟩, hbut⟩ := ((s.bump (.badFrame d)).ringLaw_iff d).mp (hb.ring g)
    rw [hside]
    exact ⟨(State.onSide_only _ _).but hbut, hw, hup h⟩
  · rename_i hn
    rw [hside] at hn
    refine hb.trans (State.onSide_bounded d fun ⟨hh, hw, _, ht, hup⟩ => ?_)
    exact ⟨hh, hw, hup h, ht, fun _ => Nat.lt_of_not_le hn⟩

theorem State.endReception_bounded (l : Lane) (s : State) : Bounded s (s.endReception l) := State.onLane_bounded l id

theorem State.endReception_side (l : Lane) (s : State) (d : Side) : (s.endReception l).side d = s.side d :=
  State.onLane_side _ _ _ _

theorem State.failCheck_bounded (d : Side) (s : State) : Bounded s (s.failCheck d) := by
  unfold State.failCheck
  split
  · rename_i h
    simp only [State.lastFailureDue, Bool.and_eq_true, beq_iff_eq] at h
    exact (s.endReception_bounded _).trans (State.badFrame_bounded (by rw [State.endReception_side]; exact h.1))
  · exact .refl s

theorem State.loseSignal_bounded (d : Side) (s : State) : Bounded s (s.loseSignal d) := by
  have h : Bounded s ((s.onSide d fun x => { x with signal := false }).endReception d.receives) :=
    (State.onSide_bounded d id).trans (State.endReception_bounded _ _)
  simp only [State.loseSignal]
  split
  · split
    · exact h
    · refine .sideDown 3 h.toPaced fun g => ?_
      obtain ⟨⟨_, hw, hf, _, _⟩, hbut⟩ := (State.ringLaw_iff d _).mp (h.ring g)
      exact ⟨hbut, hw, hf⟩
  · exact .refl s

theorem State.gainSignal_bounded (d : Side) (s : State) : Bounded s (s.gainSignal d) := by
  unfold State.gainSignal
  split
  · exact .refl s
  · exact (State.onSide_bounded d id).trans (State.tryTraining_bounded d _)

theorem State.expireHold_bounded (d : Side) (s : State) : Bounded s (s.expireHold d) := by
  unfold State.expireHold
  split
  · refine (State.onSide_bounded d fun ⟨_, hw, hf, ht, hup⟩ => ?_).trans (State.tryTraining_bounded d _)
    exact ⟨Nat.zero_le _, hw, hf, ht, hup⟩
  · exact .refl s

/-! ### Lanes (R181 to R187) -/

theorem State.deliver_dealings (l : Lane) (f : Frame) (x : Stamp) (s : State) : (s.deliver l f x).dealings = s.dealings := by
  unfold State.deliver; split <;> rfl

/-- A frame forwarded enters a queue with room, behind the others (R183, R185). -/
theorem State.forward_bounded (l : Lane) (f : Frame) (x : Stamp) (s : State) : Bounded s (s.forward l f x) := by
  unfold State.forward
  split
  · exact s.bump_bounded _
  · split
    · exact s.bump_bounded _
    · rename_i hroom
      refine (State.onLane_bounded l fun ⟨_, hf, hm, hc⟩ => ?_).trans (State.bump_bounded _ _)
      refine ⟨?_, fun q hq => ?_, hm, hc⟩
      · simpa using hroom
      · rcases e : (s.lane l).queue with _ | ⟨y, ys⟩
        · simp [e] at hq
        · rw [e] at hf
          simp only [e, List.cons_append, List.tail_cons, List.mem_append, List.mem_singleton] at hq
          rcases hq with hq | rfl
          · exact hf q hq
          · rfl

theorem State.ownReturn_bounded (l : Lane) (f : Frame) (s : State) : Bounded s (s.ownReturn l f) := by
  have h : Bounded s ((s.bump (.ownReturned l)).onLane l fun x =>
      { x with returned := true, misses := 0, roundTrip := s.ageTotal l f, returnedSeq := f.cycle.setWidth 16, closed := true }) :=
    (s.bump_bounded _).trans
      (State.onLane_bounded l fun ⟨hq, hf, _, _⟩ => ⟨hq, hf, Nat.zero_le _, fun _ => Nat.succ_pos _⟩)
  simp only [State.ownReturn]
  split
  · exact h
  · exact h.trans (State.post_bounded _ _ _ _)

theorem State.goodFrame_bounded (l : Lane) (f : Frame) (x : Stamp) (s : State) : Bounded s (s.goodFrame l f x) := by
  have h : Bounded s (s.onSide l.inSide fun x => { x with fails := 0 }) :=
    State.onSide_bounded _ fun ⟨hh, hw, _, ht, _⟩ => ⟨hh, hw, Nat.zero_le _, ht, fun _ => Nat.succ_pos _⟩
  simp only [State.goodFrame]
  split
  · exact h.trans (State.ownReturn_bounded l f _)
  · split
    · exact (h.trans (State.bump_bounded _ _)).then (State.deliver_dealings _ _ _ _)
    · exact (h.trans (State.forward_bounded l f x _)).then (State.deliver_dealings _ _ _ _)

theorem State.takeArrival_bounded (l : Lane) (c : Bool) (b : List Byte) (s : State) : Bounded s (s.takeArrival l c b) := by
  have h := s.endReception_bounded l
  simp only [State.takeArrival]
  split
  case h_1 => exact h
  case h_2 =>
    split
    · exact h.trans (State.bump_bounded _ _)
    · exact h
  case h_3 hup =>
    have hbad : Bounded s ((s.endReception l).badFrame l.inSide) :=
      h.trans (State.badFrame_bounded (by rw [State.endReception_side]; exact hup))
    split
    · split
      · exact h.trans (State.goodFrame_bounded _ _ _ _)
      · exact hbad
    · exact hbad

theorem State.startTransmission_bounded (l : Lane) (s : State) : Bounded s (s.startTransmission l) := by
  unfold State.startTransmission
  split
  · rename_i q rest hq _
    split
    · refine State.onLane_bounded l fun ⟨hlen, hf, hm, hc⟩ => ?_
      rw [hq] at hlen hf
      exact ⟨Nat.le_of_succ_le hlen, fun x hx => hf x (List.mem_of_mem_tail hx), hm, hc⟩
    · exact .refl s
  · exact .refl s

theorem State.openLane_side (l : Lane) (n : Nat) (s : State) (k : Side) : (s.openLane l n).side k = s.side k :=
  (State.onLane_side (s.onLane l fun y => { y with misses := n }) l k fun y => { y with closed := false }).trans
    (State.onLane_side s l k fun y => { y with misses := n })

theorem State.openLane_bounded (l : Lane) {n : Nat} (h : n ≤ 4) (s : State) : Bounded s (s.openLane l n) := by
  refine ⟨.still rfl, fun g => ?_⟩
  obtain ⟨hd, hk, hl⟩ := (s.ringLaw_iff .west).mp g
  obtain ⟨hq, hf, -, -⟩ := hl l
  refine ((s.openLane l n).ringLaw_iff .west).mpr
    ⟨by rwa [State.openLane_side], fun k hne => by rw [State.openLane_side]; exact hk k hne, fun m => ?_⟩
  by_cases e : m = l
  · rw [e, State.openLane_lane]; exact ⟨hq, hf, h, nofun⟩
  · rw [State.openLane_other e]; exact hl m

/-- A lane opens with the 4th miss (R182). -/
theorem State.examineLane_bounded (l : Lane) (s : State) : Bounded s (s.examineLane l) := by
  simp only [State.examineLane]
  split
  · exact State.onLane_bounded l id
  · split
    · exact (s.openLane_bounded l (min_le_left _ _)).trans (State.post_bounded .ringOpen _ _ _)
    · rename_i hopen
      refine State.onLane_bounded l fun ⟨hq, hf, _, _⟩ => ⟨hq, hf, min_le_left _ _, fun hc => ?_⟩
      have hc : (s.lane l).closed = true := hc
      show min 4 ((s.lane l).misses + 1) < 4
      have : ¬ min 4 ((s.lane l).misses + 1) = 4 := fun e => hopen ⟨e, hc⟩
      omega

theorem State.examineLanes_bounded (s : State) : Bounded s s.examineLanes := by
  unfold State.examineLanes
  split
  · exact (s.examineLane_bounded _).trans (State.examineLane_bounded _ _)
  · exact .refl s

/-- The own frame stands ahead of 15 forwarded frames at most (R186). -/
theorem State.placeOwn_bounded (f : Frame) (l : Lane) (s : State) : Bounded s (s.placeOwn f l) := by
  have h : Bounded s (s.onLane l fun x =>
      { x with queue := .own f :: ((s.lane l).queue.filter Queued.isForwarded).take 15 }) := by
    refine State.onLane_bounded l fun ⟨_, _, hm, hc⟩ => ⟨?_, fun q hq => ?_, hm, hc⟩
    · simp
    · exact (List.mem_filter.mp (List.mem_of_mem_take hq)).2
  simp only [State.placeOwn]
  split
  · exact s.bump_bounded _
  · split
    · exact h.trans (State.bump_bounded _ _)
    · exact h

theorem State.buildFrame_bounded (s : State) : Bounded s s.buildFrame := by
  unfold State.buildFrame
  split
  · exact (s.placeOwn_bounded _ _).trans (State.placeOwn_bounded _ _ _)
  · exact .refl s

end Sys2Proof.Machine

namespace Sys2Proof.Machine

variable {s t : State}

/-! ### Acceptance and the servo side -/

theorem State.takeStopPart_bounded (j : Station) (f : Frame) (s : State) : Bounded s (s.takeStopPart j f) := by
  simp only [State.takeStopPart]
  split
  · exact s.request_bounded _
  · exact .refl s

theorem State.handOver_bounded (j : Station) (c : Copy) (b : Bool) (s : State) : Bounded s (s.handOver j c b) :=
  ((s.takeFrame_bounded j c.frame b).trans (State.takeTiming_bounded j _ _ _ _)).trans
    ((State.takeOrderPart_bounded _ j _).trans (State.takeStopPart_bounded j _ _))

theorem State.setFilter_dealings (j : Station) (e : FilterEntry) (s : State) : (s.setFilter j e).dealings = s.dealings := rfl

theorem State.reportPath_bounded (j : Station) (e : FilterEntry) (s : State) : Bounded s (s.reportPath j e) := by
  unfold State.reportPath
  split
  · exact (State.post_bounded _ _ _ _).after (State.bring_dealings _ _)
  · exact .refl s

theorem State.countGap_bounded (d : Nat) (s : State) : Bounded s (s.countGap d) := by
  unfold State.countGap
  split
  · exact (s.bump_bounded _).trans (State.count_bounded _ _ _)
  · exact .refl s

/-- An entry written, its copy counted as accepted and handed over (R161, R162, R166). -/
theorem State.accepted_bounded (j : Station) (e : FilterEntry) (c : Copy) (b : Bool) (s : State) :
    Bounded s (((s.setFilter j e).bump .accepted).handOver j c b) :=
  ((State.bump_bounded _ _).after (s.setFilter_dealings j e)).trans (State.handOver_bounded j c b _)

theorem State.judge_bounded (j : Station) (c : Copy) (s : State) : Bounded s (s.judge j c) := by
  simp only [State.judge]
  split
  · exact s.accepted_bounded j _ c false
  split
  · unfold State.discardEqual
    split
    · exact s.bump_bounded _
    · exact (State.bump_bounded _ _).after (s.setFilter_dealings j _)
  split
  · exact ((s.reportPath_bounded j _).trans (State.countGap_bounded _ _)).trans (State.accepted_bounded j _ c false _)
  · unfold State.takeStale
    split
    · exact (State.bump_bounded _ _).after (s.setFilter_dealings j _)
    · refine Bounded.trans ((State.bump_bounded .resync _).after (t := (s.bring .resynchronisation).setFilter j (acceptedEntry c 0)) ?_)
        ((State.bump_bounded .accepted _).trans (State.handOver_bounded j c true _))
      exact (State.setFilter_dealings j _ _).trans (s.bring_dealings _)

theorem State.takeWaiting_bounded (n : Nat) (s : State) : Bounded s (s.takeWaiting n) := by
  have h : ∀ (c : Copy) (u : State), Bounded u (u.takeCopy c) := fun c u => by
    unfold State.takeCopy
    split
    · exact u.bump_bounded _
    · exact u.judge_bounded _ c
  unfold State.takeWaiting
  split
  · exact .refl s
  · exact (h _ _).after rfl

theorem State.checkFeedback_bounded (s : State) : Bounded s s.checkFeedback := by
  have hr : Bounded s s.checkRange := by
    simp only [State.checkRange]
    split
    · exact .refl s
    · split
      · exact (s.bump_bounded _).trans (State.requestLocal_bounded _ _ _)
      · exact s.bump_bounded _
  have hl : ∀ u : State, Bounded u u.checkLoss := fun u => by
    unfold State.checkLoss
    split
    · exact (State.requestLocal_bounded _ _ _).after (u.bring_dealings _)
    · exact .refl u
  unfold State.checkFeedback
  split
  · exact hr.trans (hl _)
  · exact .refl s

theorem State.setReady_bounded (level : Bool) (s : State) : Bounded s (s.setReady level) := by
  have h : Bounded s (s.readyShown level) := (State.post_bounded _ _ _ _).after rfl
  by_cases e : s.servo.ready = level
  · rw [s.setReady_of_eq e]; exact .refl s
  · rw [s.setReady_of_ne e]
    split
    · exact h.trans (State.requestLocal_bounded _ _ _)
    · exact h.trans (State.readyTest_bounded _)

theorem State.receiveWord_bounded (bits : List Bool) (s : State) : Bounded s (s.receiveWord bits) := by
  simp only [State.receiveWord]
  split
  · exact .still rfl
  · exact (State.bump_bounded _ _).after rfl

theorem State.latchFeedback_bounded (s : State) : Bounded s s.latchFeedback := by
  unfold State.latchFeedback
  split
  · exact .still rfl
  · exact (State.bump_bounded _ _).after rfl

theorem State.countPulse_bounded (s : State) : Bounded s s.countPulse := by
  obtain ⟨m, n, b, e⟩ := s.countPulse_frame
  rw [e]
  exact .still rfl

end Sys2Proof.Machine

namespace Sys2Proof.Machine

variable {s t : State}

/-! ### The clock within a cycle (R120 to R123) -/

theorem runTimer_le (left n : Nat) : runTimer left n ≤ left := by unfold runTimer; split <;> omega

/-- A down hold runs on under the edges that pass (R176). -/
theorem SideRec.runTimer_sound {x : SideRec} (h : x.sound) (n : Nat) : SideRec.sound { x with hold := runTimer x.hold n } := by
  obtain ⟨hh, hrest⟩ := h
  exact ⟨(runTimer_le _ n).trans hh, hrest⟩

theorem State.elapse_ringLaw (n : Nat) (g : s.ringLaw) : (s.elapse n).ringLaw := by
  obtain ⟨hw, he, ha, hb⟩ := g
  exact ⟨SideRec.runTimer_sound hw n, SideRec.runTimer_sound he n, ha, hb⟩

/-- Edges pass, whatever becomes of the cycle count and the mark with them. -/
theorem Bounded.elapsed (n : Nat) (hb : t.books = s.books) (hr : t.ring = (s.elapse n).ring)
    (hc : s.items.inRanges → s.trimLaw → s.clockLaw → t.clockLaw) : Bounded s t :=
  ⟨.timed hb hc, fun g => State.ringLaw_of_ring hr (State.elapse_ringLaw n g)⟩

theorem Items.inRanges.outputPhase_le {c : Items} (h : c.inRanges) : c.outputPhase ≤ 61440 := by
  unfold Items.inRanges at h; omega

/-- The trim of a configured part lies within 127 of 0 (R132, R200). -/
theorem State.trim_mem (hi : s.items.inRanges) (ht : s.trimLaw) : -127 ≤ s.time.trim ∧ s.time.trim ≤ 127 := by
  have : s.items.trimMax ≤ 127 := by unfold Items.inRanges at hi; omega
  obtain ⟨⟨h1, h2⟩, -⟩ := ht
  omega

/-- While the accumulator stays below a phase, so does the phase reached. -/
theorem State.elapse_phase_lt {n p : Nat} (h : s.time.acc.toNat + n * s.increment < p * 65536) : (s.elapse n).phase < p := by
  rw [State.phase, State.elapse_acc, BitVec.toNat_ofNat, Nat.div_lt_iff_lt_mul (by decide)]
  exact (Nat.mod_le _ _).trans_lt h

/-- The edges that fall short of the output instant leave the phase below OutputPhase; with the instant at the next edge none of them
passes (R123). -/
theorem State.elapseWithin_clockLaw (n : Nat) (hi : s.items.inRanges) (ht : s.trimLaw) (hc : s.clockLaw) :
    (s.elapseWithin n).clockLaw := by
  intro hm
  have hm : s.time.mark = false := hm
  have hle : min n (s.edgesToEvent - 1) ≤ s.edgesToInstant - 1 := by
    rw [State.edgesToEvent, hm]
    simp only [Bool.false_eq_true, if_false]
    omega
  by_cases hp : s.time.acc.toNat < s.items.outputPhase * 65536
  · obtain ⟨-, h⟩ := State.edgesToInstant_spec (State.increment_pos (State.trim_mem hi ht).1) hp
    have hmul := Nat.mul_le_mul_right s.increment hle
    exact (State.elapse_phase_lt (by omega)).trans_le hi.outputPhase_le
  · have h1 : s.edgesToInstant = 1 := by
      rw [State.edgesToInstant]
      have : s.port.items.outputPhase * 65536 - s.time.acc.toNat = 0 := Nat.sub_eq_zero_of_le (Nat.le_of_not_lt hp)
      rw [this]
      have : (0 + s.increment - 1) / s.increment ≤ 1 := Nat.div_le_of_le_mul (by omega)
      omega
    have h0 : min n (s.edgesToEvent - 1) = 0 := by omega
    have hlt := hc hm
    rw [State.phase, Nat.div_lt_iff_lt_mul (by decide)] at hlt
    rw [State.elapseWithin, h0]
    exact State.elapse_phase_lt (by omega)

theorem State.elapseWithin_bounded (n : Nat) (s : State) : Bounded s (s.elapseWithin n) :=
  .elapsed _ rfl rfl (State.elapseWithin_clockLaw n)

/-- A cycle opens with the accumulator below K, far below every OutputPhase (R120, R121). -/
theorem State.openCycle_bounded (s : State) : Bounded s s.openCycle := by
  refine .elapsed s.edgesToBoundary rfl rfl fun hi ht _ _ => ?_
  obtain ⟨h1, h2⟩ := State.trim_mem hi ht
  obtain ⟨-, -, -, h⟩ := State.openCycle_acc h1 h2
  have := State.increment_le h2
  rw [State.phase, Nat.div_lt_iff_lt_mul (by decide)]
  omega

/-! ### A cycle boundary (R121) -/

theorem State.opened_bounded (s : State) : Bounded s s.opened :=
  (s.openCycle_bounded.trans (State.latchFeedback_bounded _)).trans (State.countPulse_bounded _)

theorem State.act_bounded (s : State) (a : BoundaryAction) : Bounded s (s.act a) := by
  cases a with
  | servoChecks => exact s.checkFeedback_bounded
  | rampStep => exact s.stepRamps_bounded
  | assemblyTest => exact s.assemblyTest_bounded
  | countdownCheck => exact s.countdownCheck_bounded
  | orders => exact s.takeDueOrders_bounded
  | trim => exact s.computeTrim_bounded
  | peerMiss j => exact s.countMiss_bounded j
  | ringClosure => exact s.examineLanes_bounded
  | isolated => exact s.isolatedTest_bounded
  | frameBuild => exact s.buildFrame_bounded

theorem State.boundary_bounded (first : List BoundaryAction) (s : State) : Bounded s (s.boundary first) :=
  s.opened_bounded.trans (.foldl State.act State.act_bounded _ _)

/-! ### An output instant (R123) -/

theorem State.runMarker_bounded (k : Nat) (m : MarkerSlot) (r : PosRecord) (s : State) : Bounded s (s.runMarker k m r) := by
  unfold State.runMarker
  split
  · exact .still rfl
  · split
    · rename_i h
      exact s.originate_bounded _ _ _ (State.mayOriginate_room h)
    · exact s.post_bounded _ _ _
  · exact .refl s

theorem State.evaluateMarkers_bounded (r : PosRecord) (s : State) : Bounded s (s.evaluateMarkers r) := by
  unfold State.evaluateMarkers
  refine .foldl _ (fun t x => ?_) _ s
  split
  · exact (t.post_bounded _ _ _).trans (State.runMarker_bounded _ _ _ _)
  · exact .refl t

theorem State.report_bounded (f : InstantFacts) (s : State) (r : InstantReport) : Bounded s (s.report f r) := by
  cases r with
  | coupling =>
    simp only [State.report]
    split
    · exact .refl s
    · exact s.post_bounded _ _ _
  | segment =>
    simp only [State.report]
    split
    · exact .refl s
    · split
      · exact .refl s
      · split
        · exact (s.post_bounded _ _ _).trans (State.requestLocal_bounded _ _ _)
        · exact s.post_bounded _ _ _
  | underrun =>
    simp only [State.report]
    split
    · exact .refl s
    · split
      · exact s.requestLocal_bounded _ _
      · exact .refl s
  | markers =>
    simp only [State.report]
    split
    · exact .refl s
    · split
      · exact s.evaluateMarkers_bounded _
      · exact .refl s
  | late j =>
    simp only [State.report]
    split
    · exact (State.requestLocal_bounded _ _ _).after (s.bring_dealings _)
    · exact .refl s

theorem State.consume_bounded (s : State) : Bounded s s.consume.1 := by
  unfold State.consume
  split
  · dsimp only
    split
    · split
      · exact (State.bump_bounded _ _).after rfl
      · exact .still rfl
    · exact .still rfl
  · exact .refl s

theorem State.computeDrive_bounded (x : Int) (s : State) : Bounded s (s.computeDrive x) := by
  have h : Bounded s { s with drive := s.drive.compute s.items x } := .still rfl
  simp only [State.computeDrive]
  split
  · split
    · exact (h.trans (State.bump_bounded .clip _)).trans (State.bump_bounded .slew _)
    · exact h.trans (State.bump_bounded .clip _)
  · split
    · exact h.trans (State.bump_bounded .slew _)
    · exact h

theorem State.driveInstant_bounded (r : RunState) (k : Option Taken) (n : Word) (s : State) :
    Bounded s (s.driveInstant r k n) := by
  have hu : ∀ m, Bounded s (if r.coupling then s.updateHoldRuns m else s) := fun m => by
    split
    · obtain ⟨v, e⟩ := s.updateHoldRuns_frame m
      rw [e]
      exact .still rfl
    · exact .refl s
  simp only [State.driveInstant]
  split
  · exact (hu _).trans (State.computeDrive_bounded _ _)
  · exact hu _

theorem State.serve_dealings (q : Option ApplyRequest) (s : State) : (s.serve q).dealings = s.dealings := by cases q <;> rfl

theorem State.instantFacts_bounded (s : State) : Bounded s s.instantFacts.1 := by
  rw [State.instantFacts_fst]
  exact (s.consume_bounded.then (State.serve_dealings _ _)).trans (State.driveInstant_bounded _ _ _ _)

theorem State.actInstant_bounded (first : List InstantReport) (s : State) : Bounded s (s.actInstant first) := by
  have h : Bounded s (s.reported first) := s.instantFacts_bounded.trans (.foldl _ (State.report_bounded _) _ _)
  rw [State.actInstant_eq]
  split
  · exact h.then (State.fetch_dealings _)
  · exact h

/-- An instant taken sets the mark, and the cycle owes no instant any more (R123). -/
theorem State.takeInstant_bounded (first : List InstantReport) (n : Nat) (s : State) :
    Bounded s ((s.elapse n).takeInstant first) :=
  Bounded.trans (t := { s.elapse n with time := { (s.elapse n).time with mark := true } })
    (.elapsed n rfl rfl fun _ _ _ h => by cases h) (State.actInstant_bounded first _)

theorem State.instant_bounded (first : List InstantReport) (s : State) : Bounded s (s.instant first) := by
  unfold State.instant
  split
  · exact .refl s
  · exact s.takeInstant_bounded first _

theorem State.settle_dealings (s : State) : s.settle.dealings = s.dealings := rfl

theorem State.endCycle_bounded (first : List BoundaryAction) (s : State) : Bounded s (s.endCycle first) :=
  ((s.instant_bounded []).then (State.settle_dealings _)).trans (State.boundary_bounded first _)

theorem State.happens_bounded (e : Together) (s : State) : Bounded s (s.happens e) := by
  cases e with
  | boundary first => exact s.endCycle_bounded first
  | instant first => exact s.instant_bounded first
  | copy n => exact s.takeWaiting_bounded n
  | servoReady level => exact s.setReady_bounded level
  | signalLost d => exact s.loseSignal_bounded d
  | frameCheckDown d => exact s.failCheck_bounded d

/-- An edge at which no instant is due leaves the phase below OutputPhase (R121, R123). -/
theorem State.advanceClock_bounded (s : State) : Bounded s s.advanceClock := by
  unfold State.advanceClock
  split
  · exact s.boundary_bounded []
  · dsimp only
    split
    · exact s.takeInstant_bounded [] 1
    · rename_i hn
      refine .elapsed 1 rfl rfl fun hi _ _ hm => ?_
      simp only [State.instantDue, hm, Bool.not_false, Bool.true_and, decide_eq_true_eq] at hn
      exact (Nat.lt_of_not_le hn).trans_le hi.outputPhase_le

end Sys2Proof.Machine

namespace Sys2Proof.Machine

/-! ### The drive store and the supervisor port under the laws of ring, orders, trim, clock, events and counters -/

theorem State.afterBurst_bounded (s : State) : Bounded s s.afterBurst :=
  (State.readyTest_bounded s.fetch.grant).after (Eq.trans rfl s.fetch_dealings)

/-- Samples that repay the debt are discarded and counted (R35). -/
theorem State.takeSamples_bounded (l : List Half) (s : State) : Bounded s (s.takeSamples l) :=
  (State.count_bounded _ _ _).after rfl

theorem State.sampleCompletion_bounded (s : State) : Bounded s s.sampleCompletion := by
  unfold State.sampleCompletion
  split
  · unfold State.completeSamples
    dsimp only
    split
    · exact (State.afterBurst_bounded _).after rfl
    · exact ((State.takeSamples_bounded _ _).trans (State.afterBurst_bounded _)).after rfl
  · exact .refl s

theorem State.shapeCompletion_bounded (s : State) : Bounded s s.shapeCompletion := by
  unfold State.shapeCompletion
  split
  · simp only [State.completeShape]
    split <;> exact (State.afterBurst_bounded _).after rfl
  · exact .refl s

theorem State.writeCompletion_dealings (s : State) : s.writeCompletion.dealings = s.dealings := by
  unfold State.writeCompletion
  split <;> rfl

theorem State.readCompletion_dealings (s : State) : s.readCompletion.dealings = s.dealings := by
  unfold State.readCompletion
  split <;> rfl

theorem State.finish_bounded (x : Status) (w : List Word) (s : State) : Bounded s (s.finish x w) := .still rfl

theorem State.takeCommand_bounded (code : Nat) (tag : Byte) (args : List Word) {owner : State → State}
    (h : ∀ u, Bounded u (owner u)) (s : State) : Bounded s (s.takeCommand code tag args owner) := by
  unfold State.takeCommand
  dsimp only
  split
  · exact (State.bump_bounded _ _).after rfl
  · exact (h _).after rfl

theorem withCount_bounded (n : Nat) (args : List Word) {owner : State → State} (h : ∀ u, Bounded u (owner u)) (s : State) :
    Bounded s (withCount n args owner s) := by
  unfold withCount
  split
  · exact h s
  · exact s.finish_bounded _ _

theorem inStates_bounded (l : List RunState) {owner : State → State} (h : ∀ u, Bounded u (owner u)) (s : State) :
    Bounded s (inStates l owner s) := by
  unfold inStates
  split
  · exact h s
  · exact s.finish_bounded _ _

theorem withRanges_bounded (tests : List Bool) {owner : State → State} (s : State) (h : Bounded s (owner s)) :
    Bounded s (withRanges tests owner s) := by
  unfold withRanges
  split
  · exact s.finish_bounded _ _
  · exact h

/-- The flush and READY test behind a change of the schedule (R36, R74). -/
theorem Bounded.flushed {s t : State} (h : t.dealings = s.dealings) : Bounded s (t.fetch.readyTest.finish .ok []) :=
  ((State.readyTest_bounded _).after ((State.fetch_dealings t).trans h)).trans (State.finish_bounded _ _ _)

theorem State.appendSegment_bounded (args : List Word) (s : State) : Bounded s (s.appendSegment args) := by
  unfold State.appendSegment
  split
  · exact s.finish_bounded _ _
  · split
    · exact s.finish_bounded _ _
    · split
      · exact s.finish_bounded _ _
      · exact .flushed rfl

theorem State.discardSchedule_bounded (s : State) : Bounded s s.discardSchedule := .flushed rfl

theorem State.seekRepeat_bounded (args : List Word) (s : State) : Bounded s (s.seekRepeat args) := by
  unfold State.seekRepeat
  split
  · split
    · exact .flushed rfl
    · exact s.finish_bounded _ _
  · exact s.finish_bounded _ _

theorem State.writePage_bounded (args : List Word) (s : State) : Bounded s (s.writePage args) := by
  unfold State.writePage
  split
  · exact s.finish_bounded _ _
  · exact withRanges_bounded _ s (.still rfl)

theorem State.readPage_bounded (args : List Word) (s : State) : Bounded s (s.readPage args) := withRanges_bounded _ s (.still rfl)

/-- The items are written in OFFLINE alone, where the trim stands at 0, and each within its range (R122, R200). -/
theorem State.writeConfig_bounded (args : List Word) (s : State) : Bounded s (s.writeConfig args) := by
  unfold State.writeConfig
  split
  · exact s.finish_bounded _ _
  split
  · exact s.finish_bounded _ _
  rename_i hoff
  split
  · rename_i c hc
    refine Bounded.trans (t := s.withItems c) ⟨⟨id, fun h => ?_, id, fun hi => Items.write_inRanges hi hc, fun _ _ => id⟩, id⟩
      (State.finish_bounded .ok [] _)
    have h0 : s.time.trim = 0 := h.2 (not_not.mp hoff)
    refine ⟨?_, h.2⟩
    show -(c.trimMax : Int) ≤ s.time.trim ∧ s.time.trim ≤ c.trimMax
    omega
  · exact s.finish_bounded _ _

theorem State.writeCoupling_dealings (args : List Word) (s : State) : (s.writeCoupling args).dealings = s.dealings := by
  unfold State.writeCoupling
  split
  · rfl
  · split
    · rfl
    · split <;> rfl

theorem State.applyCoupling_dealings (args : List Word) (s : State) : (s.applyCoupling args).dealings = s.dealings := by
  unfold State.applyCoupling; split <;> rfl

theorem State.commandOrder_bounded (k : OrderKind) (a b : Nat) (s : State) : Bounded s (s.commandOrder k a b) := by
  unfold State.commandOrder
  split
  · rename_i h
    exact (s.originate_bounded k a b (State.mayOriginate_room h)).trans (State.finish_bounded _ _ _)
  · exact s.finish_bounded _ _

theorem orderOwner_bounded (n : Nat) (args : List Word) (l : List RunState) (k : OrderKind) (b : Nat) (s : State) :
    Bounded s (orderOwner n args l k b s) :=
  withCount_bounded n args (inStates_bounded l fun v => withRanges_bounded _ v (v.commandOrder_bounded k _ b)) s

/-- An event read leaves the queue (R205). -/
theorem State.readEvent_bounded (s : State) : Bounded s s.readEvent := by
  unfold State.readEvent
  split
  · exact s.finish_bounded _ _
  · rename_i e rest he
    refine Bounded.then (t := { s with port := { s.port with events := rest } })
      ⟨⟨id, id, fun h => ⟨?_, h.2⟩, id, fun _ _ => id⟩, id⟩ rfl
    have h := h.1
    rw [he] at h
    exact Nat.le_of_succ_le h

theorem State.clearCounters_bounded (s : State) : Bounded s s.clearCounters := by
  refine Bounded.then (t := { s with port := { s.port with counters := Vector.replicate 52 0 } }) (.counted fun _ k => ?_) rfl
  simp [Vector.get_eq_getElem]

theorem State.readTable_dealings (n k : Nat) (s : State) : (s.readTable n k).dealings = s.dealings := by
  have ht : ∀ (m : Nat) (f : Station → List Word), (s.stationTable m f).dealings = s.dealings := fun m f => by
    unfold State.stationTable; split <;> rfl
  have ha : ∀ x : Option (List Word), (s.answerRecord x).dealings = s.dealings := fun x => by
    unfold State.answerRecord; split <;> rfl
  unfold State.readTable
  split
  case h_1 | h_2 | h_3 | h_5 => exact ht _ _
  case h_4 | h_6 =>
    split
    · exact ha _
    · rfl
  case h_7 => split <;> rfl
  case h_8 => rfl

theorem State.malformedCommand_bounded (x : Bool) (b : List Byte) (s : State) : Bounded s (s.malformedCommand x b) := by
  unfold State.malformedCommand
  split
  · exact (State.bump_bounded _ _).after rfl
  · exact .refl s

theorem State.stopCommand_bounded (e : Option Together) (s : State) : Bounded s (s.stopCommand e) := by
  have h : ∀ t : State, Bounded t ((t.requestLocal .operator t.ownNumber).finish .ok []) := fun t =>
    (t.requestLocal_bounded _ _).trans (State.finish_bounded _ _ _)
  cases e with
  | none => exact h s
  | some e => exact (s.happens_bounded e).trans (h _)

theorem State.clearCommand_bounded (s : State) : Bounded s s.clearCommand := by
  have hl : ∀ t : State, Bounded t (t.clearEpisode.leaveStop.finish .ok []) := fun t => by
    refine Bounded.trans (Bounded.after (t := t.clearEpisode) ?_ rfl) (State.finish_bounded _ _ _)
    unfold State.leaveStop
    split
    · exact State.enterStandby_bounded _
    · exact State.changeState_bounded (by decide) _
  unfold State.clearCommand
  split
  · exact hl s
  · unfold State.clearTripped
    split
    · exact (hl _).after (State.fetch_dealings (s.release.setHold false))
    · exact s.finish_bounded _ _
  · exact s.finish_bounded _ _

/-- The rate taken at GO ONLINE comes with the trim at 0 (R122). -/
theorem State.takeRate_bounded (s : State) : Bounded s s.takeRate := by
  refine ⟨⟨id, fun _ => ⟨?_, fun _ => rfl⟩, id, id, fun _ _ => id⟩, id⟩
  show -(s.items.trimMax : Int) ≤ 0 ∧ (0 : Int) ≤ s.items.trimMax
  omega

theorem State.clearOwnCoefficients_dealings (s : State) : s.clearOwnCoefficients.dealings = s.dealings := by
  unfold State.clearOwnCoefficients; split <;> rfl

theorem State.takeRoster_dealings (s : State) : s.takeRoster.dealings = s.dealings := by
  obtain ⟨v, e, -⟩ := s.takeRoster_get
  rw [e]
  rfl

theorem State.requestBurst_dealings (b : Burst) (s : State) : (s.requestBurst b).dealings = s.dealings := rfl

theorem State.presented_dealings (s : State) : s.presented.dealings = s.dealings := rfl

theorem State.goOnline_bounded (s : State) : Bounded s s.goOnline := by
  have h : Bounded s (s.changeState .assembly).presented := (s.changeState_bounded (by decide)).then (State.presented_dealings _)
  have h := (h.then (State.clearOwnCoefficients_dealings _)).trans (State.takeRate_bounded _)
  rw [State.goOnline_eq]
  exact (h.then (State.takeRoster_dealings _)).then (State.requestBurst_dealings _ _)

theorem State.tryOnline_bounded (s : State) : Bounded s s.tryOnline := by
  unfold State.tryOnline
  split
  · exact s.finish_bounded _ _
  · exact s.goOnline_bounded.trans (State.finish_bounded _ _ _)

/-! ### A whole step -/

theorem State.whileRunning_bounded {f : State → State} (h : ∀ u, Bounded u (f u)) (s : State) : Bounded s (s.whileRunning f) := by
  unfold State.whileRunning
  split
  · exact ((h s.settle).after s.settle_dealings).then (State.settle_dealings _)
  · exact .refl s

theorem State.bringing_bounded (x : Happening) {f : State → State} (h : ∀ u, Bounded u (f u)) (u : State) :
    Bounded u (u.bringing x f) := by
  unfold State.bringing
  split
  · exact h u
  · exact .refl u

theorem State.command_bounded (code : Nat) (tag : Byte) (args : List Word) {owner : State → State} (h : ∀ u, Bounded u (owner u))
    (s : State) : Bounded s (s.command code tag args owner) :=
  State.whileRunning_bounded (State.takeCommand_bounded code tag args h) s

theorem State.counted_bounded (code n : Nat) (tag : Byte) (args : List Word) {owner : State → State}
    (h : ∀ u, Bounded u (owner u)) (s : State) : Bounded s (s.command code tag args (withCount n args owner)) :=
  s.command_bounded code tag args (withCount_bounded n args h)

/-- A reset leaves every law at its values of reset (R68, R209). -/
theorem State.resetBlocks_bounded (c : Condition) (s u : State) : Bounded s (u.resetBlocks c) := by
  have h : Bounded s State.reset := by
    refine ⟨⟨fun _ => ?_, fun _ => ?_, fun _ => State.reset_portLaw, fun _ => Items.reset_inRanges, fun _ _ _ _ => ?_⟩,
      fun _ => State.reset_ringLaw⟩
    · unfold State.orderLaw; decide
    · unfold State.trimLaw; decide
    · decide
  exact h.then rfl

theorem State.clockEdge_bounded (s : State) : Bounded s s.clockEdge := by
  have he : ∀ (b : State) (d : Side) (u : State), Bounded u (State.expireIfLast b d u) := fun b d u => by
    unfold State.expireIfLast
    split
    · exact u.expireHold_bounded d
    · exact .refl u
  unfold State.clockEdge
  split
  · exact .refl s
  · exact .refl s
  · split <;> exact .still rfl
  · refine s.whileRunning_bounded fun u => ?_
    unfold State.runEdge
    split
    · exact State.resetBlocks_bounded _ _ _
    · exact (u.advanceClock_bounded.trans (he _ _ _)).trans (he _ _ _)

/-- Every command keeps the laws of ring, order unit, trim, clock, event queue and counters. -/
theorem exec_bounded {t : State} (c : Instr) (s : State) (h : exec c s = .next t) : Bounded s t := by
  have hr : ∀ {a : State}, Host.Outcome.next (φ := Fault) (ρ := Refusal) a = .next t → Bounded s a → Bounded s t := by
    rintro a h g; cases h; exact g
  have hcycle : ∀ x first, Bounded s (s.whileRunning (State.bringing x (State.endCycle first))) := fun x first =>
    s.whileRunning_bounded (State.bringing_bounded x (State.endCycle_bounded first))
  have hcopy : ∀ x n, Bounded s (s.whileRunning (State.bringing x (State.takeWaiting n))) := fun x n =>
    s.whileRunning_bounded (State.bringing_bounded x (State.takeWaiting_bounded n))
  cases c with
  | powerOnReset => exact hr h (State.resetBlocks_bounded _ _ _)
  | resetRelease =>
    refine hr h ?_
    split <;> exact .still rfl
  | resetNodeTakesEffect =>
    refine hr h ?_
    split
    · exact State.resetBlocks_bounded _ _ _
    · exact .refl s
  | resetNodeEnd =>
    refine hr h ?_
    split <;> exact .still rfl
  | powerLoss => exact hr h (.still rfl)
  | cycleBoundary first => exact hr h (s.whileRunning_bounded (State.endCycle_bounded first))
  | outputInstant first => exact hr h (s.whileRunning_bounded (State.instant_bounded first))
  | feedbackWord straddles bits =>
    refine hr h ?_
    split
    · exact .refl s
    · exact s.whileRunning_bounded (State.receiveWord_bounded bits)
  | servoReady level => exact hr h (s.whileRunning_bounded (State.setReady_bounded level))
  | feedbackLoss first | rampEndReport first | assemblyComplete first | markerPulseEnd first => exact hr h (hcycle _ first)
  | peerSilent first j => exact hr h (hcycle _ first)
  | ringOpen first l => exact hr h (hcycle _ first)
  | peerLate first j => exact hr h (s.whileRunning_bounded (State.bringing_bounded _ (State.instant_bounded first)))
  | arrivalStamp l n =>
    refine hr h (s.whileRunning_bounded fun u => ?_)
    exact (u.elapseWithin_bounded n).trans
      (State.onLane_bounded l (f := fun x => { x with receiving := some (u.elapseWithin n).stampNow }) id)
  | signalPresent d => exact hr h (s.whileRunning_bounded (State.gainSignal_bounded d))
  | signalLost d => exact hr h (s.whileRunning_bounded (State.loseSignal_bounded d))
  | downHoldExpiry d => exact hr h (s.whileRunning_bounded (State.expireHold_bounded d))
  | laneWord d p f c => exact hr h (s.whileRunning_bounded (State.takeLaneWord_bounded d p f c))
  | sideTrained d =>
    refine hr h (s.whileRunning_bounded fun u => ?_)
    split
    · rename_i hw
      simp only [State.lastWordDue, Bool.and_eq_true, beq_iff_eq] at hw
      exact State.cleanWord_bounded hw.1
    · exact .refl u
  | frameArrival l c b => exact hr h (s.whileRunning_bounded (State.takeArrival_bounded l c b))
  | frameCheckDown d => exact hr h (s.whileRunning_bounded (State.failCheck_bounded d))
  | transmitStart l n =>
    exact hr h (s.whileRunning_bounded fun u => (u.elapseWithin_bounded n).trans (State.startTransmission_bounded l _))
  | transmissionEnd l => exact hr h (s.whileRunning_bounded fun u => State.onLane_bounded l id)
  | deliveryCopyTaken n => exact hr h (s.whileRunning_bounded (State.takeWaiting_bounded n))
  | resynchronisation n | pathDegraded n | stepLoss n => exact hr h (hcopy _ n)
  | sampleBurstCompletion => exact hr h (s.whileRunning_bounded State.sampleCompletion_bounded)
  | shapeLoadBurstCompletion => exact hr h (s.whileRunning_bounded State.shapeCompletion_bounded)
  | writeChunkCompletion => exact hr h (s.whileRunning_bounded fun u => .still u.writeCompletion_dealings)
  | readChunkCompletion => exact hr h (s.whileRunning_bounded fun u => .still u.readCompletion_dealings)
  | malformedTransaction x b => exact hr h (s.whileRunning_bounded (State.malformedCommand_bounded x b))
  | readReply n => exact hr h (s.whileRunning_bounded (f := State.readReply n) fun _ => .still rfl)
  | getStatus tag args => exact hr h (s.counted_bounded _ 0 tag args fun u => u.finish_bounded _ _)
  | writeConfig tag args => exact hr h (s.command_bounded _ tag args (State.writeConfig_bounded args))
  | goOnline tag args => exact hr h (s.counted_bounded _ 0 tag args (inStates_bounded _ State.tryOnline_bounded))
  | writePage tag args => exact hr h (s.command_bounded _ tag args (State.writePage_bounded args))
  | readPage tag args => exact hr h (s.counted_bounded _ 3 tag args (State.readPage_bounded args))
  | appendSegment tag args => exact hr h (s.counted_bounded _ 8 tag args (State.appendSegment_bounded args))
  | discardSchedule tag args => exact hr h (s.counted_bounded _ 0 tag args (inStates_bounded _ State.discardSchedule_bounded))
  | seekRepeat tag args => exact hr h (s.counted_bounded _ 1 tag args (inStates_bounded _ (State.seekRepeat_bounded args)))
  | writeCoupling tag args => exact hr h (s.counted_bounded _ 2 tag args fun u => .still (u.writeCoupling_dealings args))
  | applyCoupling tag args => exact hr h (s.counted_bounded _ 1 tag args fun u => .still (u.applyCoupling_dealings args))
  | start tag args => exact hr h (s.command_bounded _ tag args (orderOwner_bounded 2 args _ .start _))
  | pause tag args => exact hr h (s.command_bounded _ tag args (orderOwner_bounded 1 args _ .pause _))
  | resume tag args => exact hr h (s.command_bounded _ tag args (orderOwner_bounded 1 args _ .resume _))
  | setLevel tag args => exact hr h (s.command_bounded _ tag args (orderOwner_bounded 2 args _ .level _))
  | stop tag arrival =>
    exact hr h (s.counted_bounded _ 0 tag arrival.words (inStates_bounded _ (State.stopCommand_bounded arrival.ahead)))
  | clear tag args => exact hr h (s.counted_bounded _ 0 tag args State.clearCommand_bounded)
  | readEvent tag args => exact hr h (s.counted_bounded _ 0 tag args State.readEvent_bounded)
  | readTable tag args => exact hr h (s.counted_bounded _ 2 tag args fun u => .still (u.readTable_dealings _ _))
  | clearCounters tag args => exact hr h (s.counted_bounded _ 0 tag args State.clearCounters_bounded)
  | resetNode tag args => exact hr h (s.counted_bounded _ 0 tag args (owner := State.resetNode) fun _ => .still rfl)

/-- Every step keeps the laws of ring, order unit, trim, clock, event queue and counters. -/
theorem step_bounded {s t : State} (h : step s = .next t) : Bounded s t := by
  unfold step at h
  split at h
  · cases h; exact s.clockEdge_bounded
  · exact (exec_bounded _ _ h).after rfl

/-- Settles O59: act by act each law holds on; a side or lane count that reaches its limit is reset by the act that reaches it, and the
edges that pass stop short of the output instant until it is taken. -/
theorem stepKeepsUnitLaws : Obligations.StepKeepsUnitLaws := fun _ _ h =>
  have hb := step_bounded h
  ⟨hb.ring, hb.orders, hb.trim, hb.port, hb.clock⟩

end Sys2Proof.Machine

namespace Sys2Proof.Machine

variable {s t : State}

/-! ### What no stop request touches: the orders and the count of displaced ones (R82, R108) -/

/-- The orders with the count of the displaced ones. -/
def State.ledger (s : State) : Orders × Nat := (s.orders, s.counter .ordersDisplaced)

theorem State.ledger_of_parts (ho : t.orders = s.orders) (hc : t.port.counters = s.port.counters) : t.ledger = s.ledger := by
  unfold State.ledger State.counter
  rw [ho, hc]

theorem State.bump_ledger {c : Counter} (h : Counter.ordersDisplaced.place ≠ c.place) (s : State) :
    (s.bump c).ledger = s.ledger := Prod.ext rfl (s.count_counter_other c .ordersDisplaced 1 h)

theorem State.post_ledger (k : EventKind) (a b : Word) (s : State) : (s.post k a b).ledger = s.ledger :=
  Prod.ext (s.post_orders k a b) (s.post_counter k a b (by decide))

theorem State.changeState_ledger (r : RunState) (s : State) : (s.changeState r).ledger = s.ledger := s.post_ledger _ _ _

theorem State.returnToReady_ledger (s : State) : s.returnToReady.ledger = s.ledger := by
  have ht : ∀ u : State, u.readyTest.ledger = u.ledger := fun u => by
    rcases u.readyTest_cases with e | ⟨-, e⟩ | ⟨-, r, -, e⟩ <;> rw [e]
    · exact u.changeState_ledger _
    · exact u.changeState_ledger r
  exact (ht _).trans (s.changeState_ledger _)

theorem State.rewind_ledger (s : State) : s.rewind.ledger = s.ledger := by
  obtain ⟨-, -, -, -, -, -, ho, -⟩ := State.gear_eq_iff.mp s.rewind_gear
  exact State.ledger_of_parts ho (congrArg Port.counters s.rewind_port)

theorem State.taken_ledger (q : StopRequest) (s : State) : (s.taken q).ledger = s.ledger :=
  (State.post_ledger _ _ _ _).trans (s.bump_ledger (by decide))

theorem State.noteRequest_ledger (q : StopRequest) (s : State) : (s.noteRequest q).ledger = s.ledger := by
  have hb : (s.bump .stopsNoted).ledger = s.ledger := s.bump_ledger (by decide)
  have hp : ((s.bump .stopsNoted).post .stopNoted q.detail1 q.detail2).ledger = s.ledger := (State.post_ledger _ _ _ _).trans hb
  simp only [State.noteRequest]
  split
  · exact hp
  · split
    · exact hb
    · exact (State.ledger_of_parts rfl rfl).trans hp

theorem State.firstStep_ledger (s : State) : s.firstStep.ledger = s.ledger := by
  have hr : ∀ (r : RampReport) (u : State), (u.takeReport r).ledger = u.ledger := fun r u => by
    have hb : (u.bring .rampEnd).ledger = u.ledger := State.ledger_of_parts rfl rfl
    cases r with
    | nothing => rfl
    | rampAtZero =>
      simp only [State.takeReport]
      split
      · exact (State.changeState_ledger _ _).trans hb
      · exact hb
    | descentAtZero =>
      simp only [State.takeReport]
      split
      · exact (State.rewind_ledger _).trans ((State.changeState_ledger _ _).trans hb)
      · exact hb
  unfold State.firstStep
  split
  · exact (hr _ s.runStepped).trans (State.ledger_of_parts rfl rfl)
  · rfl

theorem State.enterStopping_ledger (q : StopRequest) (s : State) : (s.enterStopping q).ledger = s.ledger := by
  have h : (((s.taken q).latch q).setStopField q).ledger = s.ledger :=
    (State.ledger_of_parts rfl rfl).trans (s.taken_ledger q)
  refine (State.firstStep_ledger _).trans ((State.ledger_of_parts rfl rfl).trans ((State.changeState_ledger .stopping _).trans h))

theorem State.enterTripped_ledger (q : StopRequest) (s : State) : (s.enterTripped q).ledger = s.ledger := by
  have hend : ∀ v : State, v.ledger = s.ledger →
      ((((v.setStopField q).changeState .tripped).freeze).setHold true).rewind.ledger = s.ledger := fun v hv =>
    (State.rewind_ledger _).trans ((State.ledger_of_parts rfl rfl).trans
      (((v.setStopField q).changeState_ledger .tripped).trans ((State.ledger_of_parts rfl rfl).trans hv)))
  have hl : ((s.taken q).latch q).ledger = s.ledger := (State.ledger_of_parts rfl rfl).trans (s.taken_ledger q)
  simp only [State.enterTripped]
  split
  · exact hend _ ((State.ledger_of_parts rfl rfl).trans hl)
  · exact hend _ hl

/-- No stop request touches the orders, nor the count of the displaced ones (R82). -/
theorem State.request_ledger (q : StopRequest) (s : State) : (s.request q).ledger = s.ledger := by
  have hf : s.countFurther.ledger = s.ledger := State.ledger_of_parts rfl rfl
  have hc : (s.countFurther.cancelCountdown q).ledger = s.countFurther.ledger :=
    (State.returnToReady_ledger _).trans (State.taken_ledger q _)
  refine Eq.trans ?_ hf
  simp only [State.request]
  split
  case h_1 => exact hf.symm
  case h_2 | h_11 | h_12 => exact State.bump_ledger (by decide) _
  case h_3 => exact State.enterTripped_ledger q _
  case h_4 | h_5 | h_6 | h_13 => exact State.noteRequest_ledger q _
  case h_7 => exact hc
  case h_8 | h_9 | h_10 => exact State.enterStopping_ledger q _

end Sys2Proof.Machine

namespace Sys2Proof.Machine

variable {s : State} {f : Frame} {j : Station} {o e w : Order}

/-! ### Step 8: an order inserted (R107, R109) -/

/-- An order inserted, counted and posted, ahead of what a START does (R107, step 8). -/
def State.listed (o : Order) (s : State) : State :=
  (State.bump .ordersAdopted { s with orders := { s.orders with pending := insertOrder o s.orders.pending } }).post
    .orderAdopted o.identityWord o.effective

theorem State.insertAdopted_eq (s : State) (f : Frame) (o : Order) : s.insertAdopted f o = (s.listed o).considerStart f o := rfl

/-- From s to t orders, drive unit and schedule unit stand, and no counter has changed but that of the lost events. -/
structure Unbooked (s t : State) : Prop where
  orders : t.orders = s.orders
  drive : t.drive = s.drive
  sched : t.sched = s.sched
  counter : ∀ c : Counter, c.place ≠ Counter.eventOverflow.place → t.counter c = s.counter c

theorem State.post_unbooked (k : EventKind) (a b : Word) (s : State) : Unbooked s (s.post k a b) :=
  ⟨s.post_orders k a b, s.post_drive k a b, s.post_sched k a b, fun _ h => s.post_counter k a b h⟩

/-- The order unit, the drive unit, the schedule unit and the counters behind an insertion (R107, step 8). -/
theorem State.listed_facts (o : Order) (s : State) :
    (s.listed o).orders = { s.orders with pending := insertOrder o s.orders.pending } ∧ (s.listed o).drive = s.drive ∧
    (s.listed o).sched = s.sched ∧ (s.listed o).run = s.run ∧ (s.listed o).peers = s.peers ∧ (s.listed o).time = s.time ∧
    (s.listed o).counter .ordersAdopted = saturate32 (s.counter .ordersAdopted) 1 ∧
    (s.listed o).counter .ordersDisplaced = s.counter .ordersDisplaced := by
  have h := State.post_aside .orderAdopted o.identityWord o.effective
    (State.bump .ordersAdopted { s with orders := { s.orders with pending := insertOrder o s.orders.pending } })
  exact ⟨h.orders, h.drive, h.sched, State.post_run _ _ _ _, h.peers, h.time,
    (State.post_counter _ _ _ _ (by decide)).trans (State.bump_counter _ _),
    (State.post_counter _ _ _ _ (by decide)).trans (State.count_counter_other _ _ _ 1 (by decide))⟩

theorem State.considerStart_unbooked (f : Frame) (o : Order) (s : State) : Unbooked s (s.considerStart f o) := by
  unfold State.considerStart
  split
  · split
    · obtain ⟨-, -, -, -, -, hd, ho, -⟩ := s.enterCountdown_fields o.id
      exact ⟨ho, hd, s.enterCountdown_sched _, fun _ h => s.enterCountdown_counter _ h⟩
    · exact s.post_unbooked _ _ _
  · exact ⟨rfl, rfl, rfl, fun _ _ => rfl⟩

theorem State.samePosition_iff : s.samePosition f = true ↔ s.positionFields = (f.tag, f.rep, f.replay) := by
  unfold State.samePosition
  exact beq_iff_eq

/-- A START in READY at equal position fields enters COUNTDOWN (R109). -/
theorem State.considerStart_starts (hk : o.kind = .start) (hr : s.run.state = .ready)
    (hp : s.positionFields = (f.tag, f.rep, f.replay)) : s.considerStart f o = s.enterCountdown o.id := by
  rw [State.considerStart, if_pos ⟨hk, hr⟩, if_pos (State.samePosition_iff.mpr hp)]

/-- Any other order inserted leaves the run controller and the peer table (R109). -/
theorem State.considerStart_waits
    (h : o.kind ≠ .start ∨ s.run.state ≠ .ready ∨ s.positionFields ≠ (f.tag, f.rep, f.replay)) :
    (s.considerStart f o).run = s.run ∧ (s.considerStart f o).peers = s.peers := by
  unfold State.considerStart
  split
  · rename_i hs
    split
    · rename_i hp
      rcases h with h | h | h
      · exact absurd hs.1 h
      · exact absurd hs.2 h
      · exact absurd (State.samePosition_iff.mp hp) h
    · exact ⟨s.post_run _ _ _, s.post_peers _ _ _⟩
  · exact ⟨rfl, rfl⟩

/-- What an order inserted leaves of order unit, drive unit, schedule unit and counters (R107, step 8). -/
theorem State.insertAdopted_facts (f : Frame) (o : Order) (s : State) :
    (s.insertAdopted f o).orders = { s.orders with pending := insertOrder o s.orders.pending } ∧
    (s.insertAdopted f o).drive = s.drive ∧ (s.insertAdopted f o).sched = s.sched ∧
    (s.insertAdopted f o).counter .ordersAdopted = saturate32 (s.counter .ordersAdopted) 1 ∧
    (s.insertAdopted f o).counter .ordersDisplaced = s.counter .ordersDisplaced := by
  obtain ⟨ho, hd, hc, -, -, -, ha, hx⟩ := s.listed_facts o
  have h := (s.listed o).considerStart_unbooked f o
  rw [State.insertAdopted_eq]
  exact ⟨h.orders.trans ho, h.drive.trans hd, h.sched.trans hc, (h.counter _ (by decide)).trans ha,
    (h.counter _ (by decide)).trans hx⟩

theorem State.positionFields_of_sched {t : State} (h : t.sched = s.sched) : t.positionFields = s.positionFields := by
  unfold State.positionFields
  rw [h]

/-- A START inserted in READY at equal position fields (R76, R109). -/
theorem State.insertAdopted_starts (hk : o.kind = .start) (hr : s.run.state = .ready)
    (hp : s.positionFields = (f.tag, f.rep, f.replay)) :
    (s.insertAdopted f o).run.state = .countdown ∧
    (s.insertAdopted f o).run.countdown = some { epoch := o.epoch, origin := o.origin } ∧
    (s.insertAdopted f o).run.adoption = s.time.cycle ∧
    ∀ k, (s.insertAdopted f o).peer k = { s.peer k with window := [], holdRun := 0 } := by
  obtain ⟨-, -, hc, hrun, hpeers, htime, -⟩ := s.listed_facts o
  obtain ⟨h1, -, h2, -⟩ := (s.listed o).enterCountdown_fields o.id
  rw [State.insertAdopted_eq, State.considerStart_starts hk (by rw [hrun]; exact hr)
    ((State.positionFields_of_sched hc).trans hp)]
  refine ⟨h1, h2, ((s.listed o).enterCountdown_adoption o.id).trans (by rw [htime]), fun k => ?_⟩
  rw [State.enterCountdown_peer, State.peer, hpeers, State.peer]

/-- Any other order inserted (R109). -/
theorem State.insertAdopted_waits
    (h : o.kind ≠ .start ∨ s.run.state ≠ .ready ∨ s.positionFields ≠ (f.tag, f.rep, f.replay)) :
    (s.insertAdopted f o).run = s.run ∧ (s.insertAdopted f o).peers = s.peers := by
  obtain ⟨-, -, hc, hrun, hpeers, -⟩ := s.listed_facts o
  rw [← hrun, ← State.positionFields_of_sched hc] at h
  obtain ⟨h1, h2⟩ := State.considerStart_waits h
  exact ⟨h1.trans hrun, h2.trans hpeers⟩

/-! ### Steps 6 to 8 (R107) -/

/-- The cycle count has come to the effective cycle (R107, step 6). -/
theorem State.placeAdopted_late (h : later o.effective s.time.cycle = false) :
    s.placeAdopted f j o = s.requestLocal .orderSkew (stationNumber j) := by rw [State.placeAdopted, if_pos (by simp [h])]

/-- The list is full (R107, step 7). -/
theorem State.placeAdopted_full (h : later o.effective s.time.cycle = true) (hp : 4 ≤ s.orders.pending.length) :
    s.placeAdopted f j o = s.requestLocal .orderOverflow (stationNumber j) := by
  rw [State.placeAdopted, if_neg (by simp [h]), if_pos hp]

theorem State.placeAdopted_room (h : later o.effective s.time.cycle = true) (hp : s.orders.pending.length < 4) :
    s.placeAdopted f j o = s.insertAdopted f o := by
  rw [State.placeAdopted, if_neg (by simp [h]), if_neg (Nat.not_le_of_lt hp)]

/-! ### Step 4: an entry displaced (R108) -/

/-- An entry taken off the list and counted (R108). -/
def State.unlisted (e : Order) (s : State) : State :=
  State.bump .ordersDisplaced { s with orders := { s.orders with pending := s.orders.pending.erase e } }

/-- The same with the loss of an own carried order posted, ahead of what becomes of the entry's countdown (R108). -/
def State.struck (e w : Order) (s : State) : State :=
  if e.origin = s.ownNumber ∧ s.orders.carried = some e.epoch then
    State.post .orderLost e.identityWord (word w.origin)
      { s.unlisted e with orders := { (s.unlisted e).orders with carried := none } }
  else s.unlisted e

theorem State.displace_eq (s : State) (e w : Order) : s.displace e w =
    if (s.struck e w).run.state = .countdown ∧ (s.struck e w).run.countdown = some e.id then (s.struck e w).returnToReady
    else s.struck e w := rfl

/-- The order unit with an entry displaced (R108). -/
def State.ordersWithout (s : State) (e : Order) : Orders :=
  { s.orders with
    pending := s.orders.pending.erase e
    carried := if e.origin = s.items.station ∧ s.orders.carried = some e.epoch then none else s.orders.carried }

theorem State.struck_facts (e w : Order) (s : State) : (s.struck e w).orders = s.ordersWithout e ∧
    (s.struck e w).drive = s.drive ∧ (s.struck e w).sched = s.sched ∧ (s.struck e w).run = s.run ∧
    (s.struck e w).peers = s.peers ∧ (s.struck e w).time = s.time ∧
    (s.struck e w).counter .ordersDisplaced = saturate32 (s.counter .ordersDisplaced) 1 ∧
    (s.struck e w).counter .ordersAdopted = s.counter .ordersAdopted := by
  have hd : (s.unlisted e).counter .ordersDisplaced = saturate32 (s.counter .ordersDisplaced) 1 := State.bump_counter _ _
  have ha : (s.unlisted e).counter .ordersAdopted = s.counter .ordersAdopted := State.count_counter_other _ _ _ 1 (by decide)
  simp only [State.struck, State.ordersWithout]
  split
  · rename_i h
    rw [if_pos (show e.origin = s.items.station ∧ s.orders.carried = some e.epoch from h)]
    have hp := State.post_aside .orderLost e.identityWord (word w.origin)
      { s.unlisted e with orders := { (s.unlisted e).orders with carried := none } }
    exact ⟨hp.orders, hp.drive, hp.sched, State.post_run _ _ _ _, hp.peers, hp.time,
      (State.post_counter _ _ _ _ (by decide)).trans hd, (State.post_counter _ _ _ _ (by decide)).trans ha⟩
  · rename_i h
    rw [if_neg (show ¬ (e.origin = s.items.station ∧ s.orders.carried = some e.epoch) from h)]
    exact ⟨rfl, rfl, rfl, rfl, rfl, rfl, hd, ha⟩

theorem State.returnToReady_counter_adopted (s : State) : s.returnToReady.counter .ordersAdopted = s.counter .ordersAdopted := by
  have hc : ∀ (r : RunState) (u : State), (u.changeState r).counter .ordersAdopted = u.counter .ordersAdopted := fun r u =>
    u.post_counter .runState _ _ (by decide)
  unfold State.returnToReady
  rcases (s.changeState .ready).readyTest_cases with h | ⟨-, h⟩ | ⟨-, r, -, h⟩ <;> rw [h]
  · exact hc _ _
  · exact (hc _ _).trans (hc _ _)
  · exact (hc _ _).trans (hc _ _)

/-- What a displacement leaves: a countdown that waits for the entry goes back to READY (R108). -/
theorem State.displace_facts (e w : Order) (s : State) : (s.displace e w).orders = s.ordersWithout e ∧
    (s.displace e w).drive = s.drive ∧ (s.displace e w).sched = s.sched ∧ (s.displace e w).peers = s.peers ∧
    (s.displace e w).time = s.time ∧
    (s.displace e w).counter .ordersDisplaced = saturate32 (s.counter .ordersDisplaced) 1 ∧
    (s.displace e w).counter .ordersAdopted = s.counter .ordersAdopted ∧
    (s.run.state ≠ .countdown → (s.displace e w).run = s.run) := by
  obtain ⟨ho, hd, hc, hr, hp, ht, hx, ha⟩ := s.struck_facts e w
  rw [State.displace_eq]
  split
  · rename_i h
    have g := (s.struck e w).returnToReady_aside
    have hl := congrArg Prod.snd (s.struck e w).returnToReady_ledger
    refine ⟨g.orders.trans ho, g.drive.trans hd, g.sched.trans hc, g.peers.trans hp, g.time.trans ht, hl.trans hx,
      (State.returnToReady_counter_adopted _).trans ha, fun hn => absurd ?_ hn⟩
    rw [← hr]; exact h.1
  · exact ⟨ho, hd, hc, hp, ht, hx, ha, fun _ => hr⟩

/-! ### Steps 1 to 5 (R107) -/

theorem Orders.knows_iff {u : Orders} : u.knows o.id = true ↔
    (∃ x ∈ u.pending, x.epoch = o.epoch ∧ x.origin = o.origin) ∨ ∃ x ∈ u.history, x.epoch = o.epoch ∧ x.origin = o.origin := by
  have hi : ∀ x : OrderId, x = o.id ↔ x.epoch = o.epoch ∧ x.origin = o.origin := fun x => by
    cases x; simp [Order.id]
  simp only [Orders.knows, Bool.or_eq_true, List.any_eq_true, beq_iff_eq, hi]
  rfl

theorem Orders.beats_iff {u : Orders} : u.beats o = true ↔
    (∃ x ∈ u.pending, x.epoch = o.epoch ∧ x.origin < o.origin) ∨ ∃ x ∈ u.history, x.epoch = o.epoch ∧ x.origin < o.origin := by
  simp [Orders.beats]

/-- Steps 1 to 3 ignore the order (R107). -/
theorem State.adopt_ignores
    (h : o.domain &&& s.items.domain = 0 ∨ s.orders.knows o.id = true ∨ s.orders.beats o = true) : s.adopt f j o = s := by
  unfold State.adopt
  split
  · rfl
  split
  · rfl
  · rename_i hd hk
    rw [if_pos]
    rcases h with h | h | h
    · exact absurd h hd
    · exact absurd h hk
    · exact h

/-- Whatever list and history hold of the order's epoch comes from higher origins. -/
def Orders.yields (u : Orders) (o : Order) : Prop :=
  (∀ x ∈ u.pending, x.epoch = o.epoch → o.origin < x.origin) ∧ ∀ x ∈ u.history, x.epoch = o.epoch → o.origin < x.origin

/-- An order that passes steps 1 to 3 comes to the displacement of step 4 and the history test of step 5 (R107). -/
theorem State.adopt_passes (hd : o.domain &&& s.items.domain ≠ 0) (hy : s.orders.yields o) :
    (∀ e, s.orders.loser? o = some e → s.adopt f j o = (s.displace e o).placeAdopted f j o) ∧
    (s.orders.loser? o = none → s.adopt f j o =
      if s.orders.history.any (fun x => x.epoch == o.epoch && decide (o.origin < x.origin)) then
        s.requestLocal .orderSkew (stationNumber j)
      else s.placeAdopted f j o) := by
  obtain ⟨hp, hh⟩ := hy
  have hk : ¬ s.orders.knows o.id = true := fun h => by
    rcases Orders.knows_iff.mp h with ⟨x, hx, h1, h2⟩ | ⟨x, hx, h1, h2⟩
    · exact absurd (hp x hx h1) (by omega)
    · exact absurd (hh x hx h1) (by omega)
  have hb : ¬ s.orders.beats o = true := fun h => by
    rcases Orders.beats_iff.mp h with ⟨x, hx, h1, h2⟩ | ⟨x, hx, h1, h2⟩
    · exact absurd (hp x hx h1) (by omega)
    · exact absurd (hh x hx h1) (by omega)
  rw [State.adopt, if_neg hd, if_neg hk, if_neg hb]
  exact ⟨fun e h => by simp only [h], fun h => by simp only [h]⟩

/-- No entry of the list holds the order's epoch: nothing is displaced (R107, step 4). -/
theorem Orders.loser?_none {u : Orders} (h : ∀ x ∈ u.pending, x.epoch ≠ o.epoch) : u.loser? o = none := by
  unfold Orders.loser?
  rw [List.find?_eq_none]
  intro x hx
  simp [h x hx]

/-- The one entry of the order's epoch, from a higher origin, is displaced (R107, step 4, R111). -/
theorem Orders.loser?_some {u : Orders} (he : e ∈ u.pending) (hi : e.epoch = o.epoch) (hlt : o.origin < e.origin)
    (hu : ∀ x ∈ u.pending, x.epoch = o.epoch → x = e) : u.loser? o = some e := by
  unfold Orders.loser?
  rcases hf : u.pending.find? fun x => x.epoch == o.epoch && decide (o.origin < x.origin) with _ | x
  · exact absurd (List.find?_eq_none.mp hf e he) (by simp [hi, hlt])
  · have hx := List.find?_some hf
    simp only [Bool.and_eq_true, beq_iff_eq] at hx
    exact hf.trans (congrArg some (hu x (List.mem_of_find?_eq_some hf) hx.1))

/-- Step 5: the epoch is in the history from a higher origin (R107). -/
theorem State.adopt_applied (hd : o.domain &&& s.items.domain ≠ 0) (hp : ∀ x ∈ s.orders.pending, x.epoch ≠ o.epoch)
    (hx : ∃ x ∈ s.orders.history, x.epoch = o.epoch) (hh : ∀ x ∈ s.orders.history, x.epoch = o.epoch → o.origin < x.origin) :
    s.adopt f j o = s.requestLocal .orderSkew (stationNumber j) := by
  obtain ⟨x, hm, hi⟩ := hx
  rw [(State.adopt_passes hd ⟨fun y hy h => absurd h (hp y hy), hh⟩).2 (Orders.loser?_none hp)]
  exact if_pos (List.any_eq_true.mpr ⟨x, hm, by simp [hi, hh x hm hi]⟩)

/-- An order of an epoch new to list and history comes to step 6 (R107). -/
theorem State.adopt_new (hd : o.domain &&& s.items.domain ≠ 0) (hp : ∀ x ∈ s.orders.pending, x.epoch ≠ o.epoch)
    (hh : ∀ x ∈ s.orders.history, x.epoch ≠ o.epoch) : s.adopt f j o = s.placeAdopted f j o := by
  rw [(State.adopt_passes hd ⟨fun y hy h => absurd h (hp y hy), fun y hy h => absurd h (hh y hy)⟩).2 (Orders.loser?_none hp)]
  refine if_neg fun h => ?_
  obtain ⟨x, hm, hx⟩ := List.any_eq_true.mp h
  simp only [Bool.and_eq_true, beq_iff_eq] at hx
  exact hh x hm hx.1

/-- An order that displaces the list entry of its epoch comes to step 6 (R107, R108). -/
theorem State.adopt_displaces (hd : o.domain &&& s.items.domain ≠ 0)
    (hh : ∀ x ∈ s.orders.history, x.epoch = o.epoch → o.origin < x.origin) (he : e ∈ s.orders.pending)
    (hi : e.epoch = o.epoch) (hlt : o.origin < e.origin) (hu : ∀ x ∈ s.orders.pending, x.epoch = o.epoch → x = e) :
    s.adopt f j o = (s.displace e o).placeAdopted f j o :=
  (State.adopt_passes hd ⟨fun x hx h => by rw [hu x hx h]; exact hlt, hh⟩).1 e (Orders.loser?_some he hi hlt hu)

/-- The list has room once an entry of at most four has been displaced (R98, R108). -/
theorem State.displace_room (he : e ∈ s.orders.pending) (hlen : s.orders.pending.length ≤ 4) :
    (s.displace e w).orders.pending.length < 4 := by
  obtain ⟨ho, -⟩ := s.displace_facts e w
  rw [ho]
  show (s.orders.pending.erase e).length < 4
  have := List.length_pos_of_mem he
  rw [List.length_erase_of_mem he]
  omega

/-- The displacing order inserted in turn (R107, step 8, R108). -/
theorem State.displace_insertAdopted (f : Frame) (e o : Order) (s : State) :
    ((s.displace e o).insertAdopted f o).orders =
      { s.ordersWithout e with pending := insertOrder o (s.orders.pending.erase e) } ∧
    ((s.displace e o).insertAdopted f o).counter .ordersDisplaced = saturate32 (s.counter .ordersDisplaced) 1 ∧
    ((s.displace e o).insertAdopted f o).counter .ordersAdopted = saturate32 (s.counter .ordersAdopted) 1 ∧
    (s.run.state ≠ .countdown → o.kind ≠ .start →
      ((s.displace e o).insertAdopted f o).run = s.run ∧ ((s.displace e o).insertAdopted f o).drive = s.drive ∧
      ((s.displace e o).insertAdopted f o).sched = s.sched ∧ ((s.displace e o).insertAdopted f o).peers = s.peers) := by
  obtain ⟨ho, hd, hc, hp, -, hx, ha, hr⟩ := s.displace_facts e o
  obtain ⟨h1, h2, h3, h4, h5⟩ := (s.displace e o).insertAdopted_facts f o
  rw [ho] at h1
  rw [ha] at h4
  refine ⟨h1, h5.trans hx, h4, fun hn hk => ?_⟩
  obtain ⟨g1, g2⟩ := (s.displace e o).insertAdopted_waits (f := f) (o := o) (.inl hk)
  exact ⟨g1.trans (hr hn), h2.trans hd, h3.trans hc, g2.trans hp⟩

/-- A request behind a displacement leaves what the displacement has made of the orders (R107, step 6, R108). -/
theorem State.displace_requestLocal (c : Cause) (n : Nat) (e w : Order) (s : State) :
    ((s.displace e w).requestLocal c n).orders = s.ordersWithout e ∧
    ((s.displace e w).requestLocal c n).counter .ordersDisplaced = saturate32 (s.counter .ordersDisplaced) 1 := by
  obtain ⟨ho, -, -, -, -, hx, -, -⟩ := s.displace_facts e w
  have h := (s.displace e w).request_ledger ((s.displace e w).localRequest c n)
  exact ⟨(congrArg Prod.fst h).trans ho, (congrArg Prod.snd h).trans hx⟩

/-- Settles O29: steps 1 to 3 by what they test, steps 4 to 8 by what displacement, request and insertion leave. -/
theorem adoptionSteps : Obligations.AdoptionSteps := by
  rintro f j o s _ rfl
  refine ⟨fun h => State.adopt_ignores (.inl h), fun h => State.adopt_ignores (.inr (.inl (Orders.knows_iff.mpr (.inl h)))),
    ?_, fun h => State.adopt_ignores (.inr (.inr (Orders.beats_iff.mpr (.inl h)))), State.adopt_applied, ?_, ?_⟩
  · rintro ⟨x, hx, hi, hle⟩
    rcases Nat.eq_or_lt_of_le hle with h | h
    · exact State.adopt_ignores (.inr (.inl (Orders.knows_iff.mpr (.inr ⟨x, hx, hi, h⟩))))
    · exact State.adopt_ignores (.inr (.inr (Orders.beats_iff.mpr (.inr ⟨x, hx, hi, h⟩))))
  · intro hd hp hh
    rw [State.adopt_new hd hp hh]
    refine ⟨State.placeAdopted_late, State.placeAdopted_full, fun hl hn => ?_⟩
    rw [State.placeAdopted_room hl hn]
    obtain ⟨h1, h2, h3, h4, -⟩ := s.insertAdopted_facts f o
    exact ⟨h1, h2, h3, h4, State.insertAdopted_starts, State.insertAdopted_waits⟩
  · intro e hd hh he hi hlt hu hlen
    have htime : (s.displace e o).time = s.time := by
      obtain ⟨-, -, -, -, ht, -⟩ := s.displace_facts e o
      exact ht
    rw [State.adopt_displaces hd hh he hi hlt hu]
    by_cases hl : later o.effective s.time.cycle = true
    · rw [State.placeAdopted_room (by rw [htime]; exact hl) (State.displace_room he hlen)]
      obtain ⟨ho, hx, ha, hrest⟩ := s.displace_insertAdopted f e o
      rw [ho]
      exact ⟨rfl, rfl, hx, rfl, fun _ => ⟨rfl, ha⟩, fun h => absurd (hl.symm.trans h) (by decide), fun hn hk _ => hrest hn hk⟩
    · have hl : later o.effective s.time.cycle = false := Bool.eq_false_iff.mpr hl
      rw [State.placeAdopted_late (by rw [htime]; exact hl)]
      obtain ⟨ho, hx⟩ := s.displace_requestLocal .orderSkew (stationNumber j) e o
      rw [ho]
      exact ⟨rfl, rfl, hx, rfl, fun h => absurd (hl.symm.trans h) (by decide), fun _ => ⟨rfl, rfl⟩,
        fun _ _ h => absurd (hl.symm.trans h) (by decide)⟩

end Sys2Proof.Machine
